-- ==== Sys2Proof/Word.lean ====
section
/-! DEFINITION. The words of the MLFSP: one byte, and the 60-byte frame that its three arrays and its
frame channel hold (20_memory.md R60, 30_encoding.md R81). -/

namespace Sys2Proof

/-- A u8: an input byte (R80) or one entry of an array (R60). -/
abbrev Byte := BitVec 8

/-- A frame: "a fixed-size ordered sequence of 60 unsigned 8-bit values" (R60, R92). The arrays BUF, OB
and PF each hold one (R28, R29, R35). -/
abbrev Frame := Vector Byte 60

end Sys2Proof
end

