-- ==== Sys2Proof/Config.lean ====
section
/-! DEFINITION. What a build fixes (00_scope.md R9), what the host drives in a cycle (10_state.md R22 to
R24), the point record (30_encoding.md R95), and the values the spec leaves free. -/

namespace Sys2Proof

/-- WRAP_MODE, the wraparound test (R4, R9). SIGN is refused (R145). -/
inductive WrapMode where
  | compare
  | sign
deriving DecidableEq, Repr, Inhabited

/-- TRIG, the sine/cosine unit (R4, R9). `otherTable` stands for every unit that does not give the
integers of CORDIC20; R181 refuses it. -/
inductive TrigUnit where
  | cordic20
  | otherTable
deriving DecidableEq, Repr, Inhabited

/-- The build-time parameters of R9, as a host writes them down: legal or not (`legalParams`). -/
structure Params where
  /-- DIST_MASK_BITS, legal values 14 and 12. -/
  distMaskBits : Nat
  /-- WRAP_MODE, legal value COMPARE. -/
  wrapMode : WrapMode
  /-- TRIG, legal value CORDIC20. -/
  trig : TrigUnit
  /-- ORIGIN_X, a signed 16-bit value. -/
  originX : BitVec 16
  /-- ORIGIN_Y, a signed 16-bit value. -/
  originY : BitVec 16
  /-- SCALE_DIV, an unsigned 16-bit value; 0 is refused. -/
  scaleDiv : BitVec 16
deriving DecidableEq, Repr, Inhabited

/-- The default build of R9. -/
def Params.default : Params where
  distMaskBits := 14
  wrapMode := .compare
  trig := .cordic20
  originX := 0
  originY := 0
  scaleDiv := 1

/-- How the units are connected: composed into the top level (43_top.md R200), or each unit alone with
its own frame ports (R22, R23, R239; program P4 of 95_test_vectors.md). The model's own (log 6). -/
inductive Wiring where
  | composed
  | unitsAlone
deriving DecidableEq, Repr, Inhabited

/-- The input levels of one cycle, sampled by the edge that ends it (R22, R23, R24), with the draw of
that edge (R12, R150) and the host's parameter setting (R73, R237; log 7). -/
structure Pins where
  rst : Bool
  sclr : Bool
  inValid : Bool
  inData : Byte
  ptReady : Bool
  /-- The free Boolean of this edge that R150 reads where it sets PV. -/
  draw : Bool
  /-- fo_ready of DFR; read only with the units alone. -/
  foReady : Bool
  /-- fi_valid of PRJ; read only with the units alone. -/
  fiValid : Bool
  /-- fi_len of PRJ; read only with the units alone. -/
  fiLen : BitVec 7
  /-- fi_data of PRJ; read only with the units alone. -/
  fiData : BitVec 480
  /-- A parameter setting the host applies in this cycle, or none. -/
  params : Option Params
deriving DecidableEq, Repr, Inhabited

/-- Every input at 0, as R93 drives an input that no command names. -/
def Pins.idle : Pins where
  rst := false
  sclr := false
  inValid := false
  inData := 0
  ptReady := false
  draw := false
  foReady := false
  fiValid := false
  fiLen := 0
  fiData := 0
  params := none

/-- A point record (R95): the `pt_*` payload ports of R23, with the widths given there. -/
structure PointRecord where
  k : BitVec 4
  last : Bool
  /-- s18 -/
  x : BitVec 18
  /-- s18 -/
  y : BitVec 18
  dist : BitVec 14
  /-- s22, units of 1/1024 degree -/
  theta : BitVec 22
  firstRaw : BitVec 16
  lastRaw : BitVec 16
  /-- s17, units of 1/64 degree -/
  firstAng : BitVec 17
  /-- s17, units of 1/64 degree -/
  lastAng : BitVec 17
deriving DecidableEq, Repr, Inhabited

/-- The three arrays of R60. -/
inductive ArrayName where
  | buf
  | ob
  | pf
deriving DecidableEq, Repr

/-- FREE VALUE. The input levels of a cycle that `env` does not list; the argument is the number of
edges stepped. The host-side agents are free inputs (R20; log 3). -/
opaque Config.hostDrive : Nat → Pins

/-- FREE VALUE. What a RESET edge leaves in an array: "unspecified", "including a fresh draw at each
reset" (R44; log 2). The second argument is the number of edges stepped. -/
opaque Config.resetArray : ArrayName → Nat → Frame

/-- FREE VALUE. `fo_data` in a cycle with fo_valid = 0 (R114; log 13). -/
opaque Config.idleFoData : Nat → BitVec 480

/-- FREE VALUE. The `pt_*` payload in a cycle with pt_valid = 0 (R150; log 13). -/
opaque Config.idlePoint : Nat → PointRecord

/-- FREE VALUE. PT_LAT_MAX less one. -/
opaque Config.ptLatMaxPred : Nat

/-- PT_LAT_MAX, OPEN in the spec: "any integer ≥ 1" (R9, decision D14; log 14). -/
def Config.ptLatMax : Nat := Config.ptLatMaxPred + 1

end Sys2Proof
end

