-- ==== Sys2Proof/Syntax.lean ====
section
/-! DEFINITION. The operations of spec/opcode_table.json, one constructor a row, and the dispatch keys
that select them (30_encoding.md R84, R86, R88, R89). -/

namespace Sys2Proof

/-- A dispatch key of one of the five formats. -/
inductive Key where
  /-- `{ST[1:0], IDX[5:0], in_data[7:0]}`, formed where a byte is accepted (R84). -/
  | dfr (w : BitVec 16)
  /-- `{fi_len[6:0], frame byte 1, frame byte 0}`, formed where a frame is accepted (R86). -/
  | pfk (w : BitVec 23)
  /-- `{PV, pt_ready, K[3:0]}`, formed at every edge in RUN (R88). -/
  | ptk (w : BitVec 6)
  /-- `{rst, sclr}` (R89). -/
  | ctl (w : BitVec 2)
  /-- `{OV, fo_ready}` (R89). -/
  | fox (w : BitVec 2)
deriving DecidableEq, Repr

/-- An operation. Its arguments are the fields of its key that its row leaves open; the fields IDX, PV
and K restate registers (log 10). -/
inductive Instr where
  /-- DFR_HDR1_MATCH (R101). -/
  | dfrHdr1Match (idx : BitVec 6)
  /-- DFR_HDR1_SKIP (R102). -/
  | dfrHdr1Skip (idx : BitVec 6) (b : Byte)
  /-- DFR_HDR2_MATCH (R103). -/
  | dfrHdr2Match (idx : BitVec 6)
  /-- DFR_HDR2_FAIL_RESYNC (R104). -/
  | dfrHdr2FailResync (idx : BitVec 6)
  /-- DFR_HDR2_FAIL_SKIP (R105). -/
  | dfrHdr2FailSkip (idx : BitVec 6) (b : Byte)
  /-- DFR_COL_LAST (R107). -/
  | dfrColLast (b : Byte)
  /-- DFR_COL_STORE (R106). -/
  | dfrColStore (idx : BitVec 6) (b : Byte)
  /-- DFR_RSV_ST3 (R108). -/
  | dfrRsvSt3 (idx : BitVec 6) (b : Byte)
  /-- PRJ_ACCEPT (R151). -/
  | prjAccept
  /-- PRJ_MALFORMED (R142). -/
  | prjMalformed (len : BitVec 7) (b1 : Byte) (b0 : Byte)
  /-- PRJ_PT_LAST (R153). -/
  | prjPtLast
  /-- PRJ_PT_NEXT (R152). -/
  | prjPtNext (k : BitVec 4)
  /-- PRJ_PT_WAIT (R154). -/
  | prjPtWait (pv : Bool) (ptReady : Bool) (k : BitVec 4)
  /-- RESET (R230, R231, R232). -/
  | reset (sclr : Bool)
  /-- DFR_SCLR (R109). -/
  | dfrSclr
  /-- DFR_FO_TAKE (R113). -/
  | dfrFoTake
deriving DecidableEq, Repr

end Sys2Proof
end

