-- ==== Sys2Proof/WellFormed.lean ====
section
/-! DEFINITION. When an operation's arguments are ones its own row selects: a key that an earlier row of
its format takes belongs to that row (30_encoding.md R84, R85, R87, R88). -/

namespace Sys2Proof

/-- The arguments are those of a key whose FIRST matching row is this operation's. -/
def Instr.wf : Instr → Bool
  | .dfrHdr1Match _ => true
  | .dfrHdr1Skip _ b => b != 0x55
  | .dfrHdr2Match _ => true
  | .dfrHdr2FailResync _ => true
  | .dfrHdr2FailSkip _ b => b != 0xAA && b != 0x55
  | .dfrColLast _ => true
  | .dfrColStore idx _ => idx != 59
  | .dfrRsvSt3 _ _ => true
  | .prjAccept => true
  | .prjMalformed len b1 b0 => !(len == 60 && b1 == 0xAA && b0 == 0x55)
  | .prjPtLast => true
  | .prjPtNext k => k != 15
  | .prjPtWait pv ptReady _ => !(pv && ptReady)
  | .reset _ => true
  | .dfrSclr => true
  | .dfrFoTake => true

end Sys2Proof
end

