-- ==== Sys2Proof/Decode.lean ====
section
/-! DEFINITION. The opcode table (30_encoding.md R85, R87, R88, R89), the decoder that reads a dispatch key
by its first matching row, and the encoder that writes the key of an operation. -/

namespace Sys2Proof

/-- A row's mask and match values; a key hits the row when `(key AND mask) = match` (R84). -/
structure Row (n : Nat) where
  mask : BitVec n
  pat : BitVec n
deriving DecidableEq, Repr

/-- R84: the row matches the key. -/
def Row.hits {n : Nat} (r : Row n) (w : BitVec n) : Bool := w &&& r.mask == r.pat

/-! The rows of R85, in priority order. -/

def rowHdr1Match : Row 16 := ⟨0xC0FF, 0x0055⟩
def rowHdr1Skip : Row 16 := ⟨0xC000, 0x0000⟩
def rowHdr2Match : Row 16 := ⟨0xC0FF, 0x40AA⟩
def rowHdr2FailResync : Row 16 := ⟨0xC0FF, 0x4055⟩
def rowHdr2FailSkip : Row 16 := ⟨0xC000, 0x4000⟩
def rowColLast : Row 16 := ⟨0xFF00, 0xBB00⟩
def rowColStore : Row 16 := ⟨0xC000, 0x8000⟩
def rowRsvSt3 : Row 16 := ⟨0xC000, 0xC000⟩

/-! The rows of R87 and R88. -/

def rowAccept : Row 23 := ⟨0x7FFFFF, 0x3CAA55⟩
def rowMalformed : Row 23 := ⟨0, 0⟩
def rowPtLast : Row 6 := ⟨0x3F, 0x3F⟩
def rowPtNext : Row 6 := ⟨0x30, 0x30⟩
def rowPtWait : Row 6 := ⟨0, 0⟩

/-! The rows of R89. -/

def rowReset : Row 2 := ⟨0b10, 0b10⟩
def rowSclr : Row 2 := ⟨0b11, 0b01⟩
def rowFoTake : Row 2 := ⟨0b11, 0b11⟩

/-- The rows of format DFR with their mnemonics, lowest priority number first (R84, R85). -/
def dfrTable : List (String × Row 16) :=
  [("DFR_HDR1_MATCH", rowHdr1Match), ("DFR_HDR1_SKIP", rowHdr1Skip),
   ("DFR_HDR2_MATCH", rowHdr2Match), ("DFR_HDR2_FAIL_RESYNC", rowHdr2FailResync),
   ("DFR_HDR2_FAIL_SKIP", rowHdr2FailSkip), ("DFR_COL_LAST", rowColLast),
   ("DFR_COL_STORE", rowColStore), ("DFR_RSV_ST3", rowRsvSt3)]

/-- The rows of format PFK (R87). -/
def pfkTable : List (String × Row 23) :=
  [("PRJ_ACCEPT", rowAccept), ("PRJ_MALFORMED", rowMalformed)]

/-- The rows of format PTK (R88). -/
def ptkTable : List (String × Row 6) :=
  [("PRJ_PT_LAST", rowPtLast), ("PRJ_PT_NEXT", rowPtNext), ("PRJ_PT_WAIT", rowPtWait)]

/-- The rows of format CTL (R89). -/
def ctlTable : List (String × Row 2) := [("RESET", rowReset), ("DFR_SCLR", rowSclr)]

/-- The row of format FOX (R89). -/
def foxTable : List (String × Row 2) := [("DFR_FO_TAKE", rowFoTake)]

/-- The mnemonic of the first row of a table that a key hits (R84: "the first match selects the
operation"). -/
def firstHit {n : Nat} (table : List (String × Row n)) (w : BitVec n) : Option String :=
  (table.find? fun r => r.2.hits w).map Prod.fst

/-- The first row of the opcode table that a key hits. -/
def tableMnemonic : Key → Option String
  | .dfr w => firstHit dfrTable w
  | .pfk w => firstHit pfkTable w
  | .ptk w => firstHit ptkTable w
  | .ctl w => firstHit ctlTable w
  | .fox w => firstHit foxTable w

/-- Why a key selects no operation. -/
inductive Reject where
  /-- No row of the key's format matches: CTL with rst = 0 and sclr = 0, FOX without both bits (R89). -/
  | noOperation
deriving DecidableEq, Repr

/-! The fields of the keys (R84, R86, R88). -/

def keyIdx (w : BitVec 16) : BitVec 6 := w.extractLsb' 8 6
def keyByte (w : BitVec 16) : Byte := w.extractLsb' 0 8
def keyLen (w : BitVec 23) : BitVec 7 := w.extractLsb' 16 7
def keyByte1 (w : BitVec 23) : Byte := w.extractLsb' 8 8
def keyByte0 (w : BitVec 23) : Byte := w.extractLsb' 0 8
def keyPv (w : BitVec 6) : Bool := w.getLsbD 5
def keyPtReady (w : BitVec 6) : Bool := w.getLsbD 4
def keyK (w : BitVec 6) : BitVec 4 := w.extractLsb' 0 4

/-- The operation of a DFR key (R85). The last branch is never reached: the map is total. -/
def decodeDfr (w : BitVec 16) : Except Reject Instr :=
  if rowHdr1Match.hits w then .ok (.dfrHdr1Match (keyIdx w))
  else if rowHdr1Skip.hits w then .ok (.dfrHdr1Skip (keyIdx w) (keyByte w))
  else if rowHdr2Match.hits w then .ok (.dfrHdr2Match (keyIdx w))
  else if rowHdr2FailResync.hits w then .ok (.dfrHdr2FailResync (keyIdx w))
  else if rowHdr2FailSkip.hits w then .ok (.dfrHdr2FailSkip (keyIdx w) (keyByte w))
  else if rowColLast.hits w then .ok (.dfrColLast (keyByte w))
  else if rowColStore.hits w then .ok (.dfrColStore (keyIdx w) (keyByte w))
  else if rowRsvSt3.hits w then .ok (.dfrRsvSt3 (keyIdx w) (keyByte w))
  else .error .noOperation

/-- The operation of a PRJ frame key (R87). -/
def decodePfk (w : BitVec 23) : Except Reject Instr :=
  if rowAccept.hits w then .ok .prjAccept
  else if rowMalformed.hits w then .ok (.prjMalformed (keyLen w) (keyByte1 w) (keyByte0 w))
  else .error .noOperation

/-- The operation of a PRJ point key (R88). -/
def decodePtk (w : BitVec 6) : Except Reject Instr :=
  if rowPtLast.hits w then .ok .prjPtLast
  else if rowPtNext.hits w then .ok (.prjPtNext (keyK w))
  else if rowPtWait.hits w then .ok (.prjPtWait (keyPv w) (keyPtReady w) (keyK w))
  else .error .noOperation

/-- The operation of a control key (R89). -/
def decodeCtl (w : BitVec 2) : Except Reject Instr :=
  if rowReset.hits w then .ok (.reset (w.getLsbD 0))
  else if rowSclr.hits w then .ok .dfrSclr
  else .error .noOperation

/-- The operation of a frame-channel key (R89). -/
def decodeFox (w : BitVec 2) : Except Reject Instr :=
  if rowFoTake.hits w then .ok .dfrFoTake
  else .error .noOperation

/-- The operation a dispatch key selects, or the reason it selects none. -/
def decode : Key → Except Reject Instr
  | .dfr w => decodeDfr w
  | .pfk w => decodePfk w
  | .ptk w => decodePtk w
  | .ctl w => decodeCtl w
  | .fox w => decodeFox w

/-- `{ST, IDX, byte}` (R84). -/
def dfrKeyOf (st : BitVec 2) (idx : BitVec 6) (b : Byte) : BitVec 16 := st ++ idx ++ b

/-- `{fi_len, frame byte 1, frame byte 0}` (R86). -/
def pfkKeyOf (len : BitVec 7) (b1 b0 : Byte) : BitVec 23 := len ++ b1 ++ b0

/-- `{PV, pt_ready, K}` (R88). -/
def ptkKeyOf (pv ptReady : Bool) (k : BitVec 4) : BitVec 6 :=
  BitVec.ofBool pv ++ BitVec.ofBool ptReady ++ k

/-- `{rst, sclr}` or `{OV, fo_ready}` (R89). -/
def pairKeyOf (hi lo : Bool) : BitVec 2 := BitVec.ofBool hi ++ BitVec.ofBool lo

/-- The key of an operation (R84 to R89). -/
def encode : Instr → Key
  | .dfrHdr1Match idx => .dfr (dfrKeyOf 0 idx 0x55)
  | .dfrHdr1Skip idx b => .dfr (dfrKeyOf 0 idx b)
  | .dfrHdr2Match idx => .dfr (dfrKeyOf 1 idx 0xAA)
  | .dfrHdr2FailResync idx => .dfr (dfrKeyOf 1 idx 0x55)
  | .dfrHdr2FailSkip idx b => .dfr (dfrKeyOf 1 idx b)
  | .dfrColLast b => .dfr (dfrKeyOf 2 59 b)
  | .dfrColStore idx b => .dfr (dfrKeyOf 2 idx b)
  | .dfrRsvSt3 idx b => .dfr (dfrKeyOf 3 idx b)
  | .prjAccept => .pfk (pfkKeyOf 60 0xAA 0x55)
  | .prjMalformed len b1 b0 => .pfk (pfkKeyOf len b1 b0)
  | .prjPtLast => .ptk (ptkKeyOf true true 15)
  | .prjPtNext k => .ptk (ptkKeyOf true true k)
  | .prjPtWait pv ptReady k => .ptk (ptkKeyOf pv ptReady k)
  | .reset sclr => .ctl (pairKeyOf true sclr)
  | .dfrSclr => .ctl (pairKeyOf false true)
  | .dfrFoTake => .fox (pairKeyOf true true)

/-- The row an operation belongs to, by its name in the opcode table. -/
def Instr.mnemonic : Instr → String
  | .dfrHdr1Match _ => "DFR_HDR1_MATCH"
  | .dfrHdr1Skip _ _ => "DFR_HDR1_SKIP"
  | .dfrHdr2Match _ => "DFR_HDR2_MATCH"
  | .dfrHdr2FailResync _ => "DFR_HDR2_FAIL_RESYNC"
  | .dfrHdr2FailSkip _ _ => "DFR_HDR2_FAIL_SKIP"
  | .dfrColLast _ => "DFR_COL_LAST"
  | .dfrColStore _ _ => "DFR_COL_STORE"
  | .dfrRsvSt3 _ _ => "DFR_RSV_ST3"
  | .prjAccept => "PRJ_ACCEPT"
  | .prjMalformed _ _ _ => "PRJ_MALFORMED"
  | .prjPtLast => "PRJ_PT_LAST"
  | .prjPtNext _ => "PRJ_PT_NEXT"
  | .prjPtWait _ _ _ => "PRJ_PT_WAIT"
  | .reset _ => "RESET"
  | .dfrSclr => "DFR_SCLR"
  | .dfrFoTake => "DFR_FO_TAKE"

/-- The operation of a key, if it selects one. -/
def decodeOk (key : Key) : Option Instr :=
  match decode key with
  | .ok i => some i
  | .error _ => none

/-- The key that a table row's bits stand for. The table does not write a row's format into its bits, so
the width picks it: 16 bits are DFR, 24 bits are PFK; of the rows given 8 bits, the words 1 and 2 are
CTL, 3 is FOX and the others are PTK; the one row given no bits is PRJ_MALFORMED (DESIGN CHOICE, log 11).
Bits above the key's width must be 0. -/
def tableKey (nbits w : Nat) : Option Key :=
  if nbits = 16 then (if w < 2 ^ 16 then some (.dfr (BitVec.ofNat 16 w)) else none)
  else if nbits = 24 then (if w < 2 ^ 23 then some (.pfk (BitVec.ofNat 23 w)) else none)
  else if nbits = 8 then
    (if w = 1 ∨ w = 2 then some (.ctl (BitVec.ofNat 2 w))
     else if w = 3 then some (.fox 3)
     else if w < 2 ^ 6 then some (.ptk (BitVec.ofNat 6 w))
     else none)
  else if nbits = 0 then some (.pfk 0)
  else none

/-- The operation the decoder reads from a table row's bits. -/
def decodeTableWord (nbits w : Nat) : Option Instr := (tableKey nbits w).bind decodeOk

end Sys2Proof
end

