-- ==== Sys2Proof/Machine/Params.lean ====
section
/-! DEFINITION. Which parameter settings a build may have (00_scope.md R9). -/

namespace Sys2Proof.Machine

/-- "A build outside the legal values is refused" (R9): DIST_MASK_BITS is 14 or 12, WRAP_MODE is COMPARE
(SIGN is refused, R145), TRIG is CORDIC20 (R181), SCALE_DIV is not 0. Every 16-bit origin is legal. -/
def legalParams (p : Params) : Bool :=
  (p.distMaskBits == 14 || p.distMaskBits == 12) && p.wrapMode == .compare
    && p.trig == .cordic20 && p.scaleDiv != 0

end Sys2Proof.Machine
end

