-- ==== Sys2Proof/Machine/State.lean ====
section
/-! DEFINITION. The state of the MLFSP: every register of 10_state.md (R43), the build (R41), and the
model's own fields, which are marked so. -/

namespace Sys2Proof.Machine

/-! The codes of ST (R25). -/

abbrev stS1 : BitVec 2 := 0b00
abbrev stS2 : BitVec 2 := 0b01
abbrev stCol : BitVec 2 := 0b10
/-- The reserved code, handled as S1 (R108). -/
abbrev stRsv : BitVec 2 := 0b11

/-- PST (R32): IDLE is 0, RUN is 1. -/
inductive Pst where
  | idle
  | run
deriving DecidableEq, Repr, Inhabited

/-- A legal build (R9): a machine exists for no other. -/
structure Build where
  params : Params
  legal : legalParams params = true
deriving DecidableEq, Repr

/-- The build with the default parameters of R9. -/
def Build.default : Build := ⟨Params.default, by decide⟩

/-- What DFR's recognizer was given at an edge: an accepted byte or a soft clear (R117). -/
inductive DfrEvent where
  | byte (b : Byte)
  | sclr
deriving DecidableEq, Repr

/-- The MODEL's own record of what crossed the channels since the last reset edge, oldest first (log 5).
No operation reads it. -/
structure Trace where
  /-- The bytes DFR accepted and the sclr edges among them (R117, R204). -/
  accepted : List DfrEvent
  /-- The frames written to OB at completing edges (R107, R117). -/
  completed : List Frame
  /-- The frames DFR handed off (R113). -/
  handed : List Frame
  /-- The well-formed frames PRJ accepted (R151). -/
  admitted : List Frame
  /-- The point records the consumer took (R152, R153). -/
  points : List PointRecord
deriving DecidableEq, Repr

def Trace.empty : Trace := ⟨[], [], [], [], []⟩

/-- The state between two edges of `clk`. -/
structure State where
  /-- ST (R25), the recognizer state. -/
  st : BitVec 2
  /-- IDX (R26), the write index. -/
  idx : BitVec 6
  /-- TLEN (R27), the target length. -/
  tlen : BitVec 6
  /-- BUF (R28), the collect buffer. -/
  buf : Frame
  /-- OB (R29), the output holding register. -/
  ob : Frame
  /-- OV (R30), OB holds a frame not transferred. -/
  ov : Bool
  /-- DONE (R31), the completion pulse. -/
  done : Bool
  /-- PST (R32), the projector state. -/
  pst : Pst
  /-- K (R33), the point counter. -/
  k : BitVec 4
  /-- PV (R34), the point is offered. -/
  pv : Bool
  /-- PF (R35), the projector's frame. -/
  pf : Frame
  /-- ERRP (R37), the malformed pulse. -/
  errp : Bool
  /-- ERRS (R38), the sticky error flag. -/
  errs : Bool
  /-- ERRC (R39), the sticky causes: bit 0 LEN, bit 1 HDR. -/
  errc : BitVec 2
  /-- The build parameters (R9, R41), constant within a reset epoch. -/
  build : Build
  /-- The MODEL's own: the arrangement of the units (log 6). -/
  wiring : Wiring
  /-- The MODEL's own: the input levels of the coming cycles, the current cycle first (R20; log 3). -/
  env : List Pins
  /-- The MODEL's own: the number of edges stepped, the argument of free values (log 4). -/
  tick : Nat
  /-- The MODEL's own: what crossed the channels since the last reset edge (log 5). -/
  trace : Trace
deriving DecidableEq, Repr

/-- The reasons a step stops with a fault. -/
inductive Fault where
  /-- A store to an index of 60 to 63, which "address nothing" (R60). Raised by DFR_HDR2_MATCH and
  DFR_COL_STORE in states no run from reset reaches (R115). Safe: the model stops where the spec gives
  no effect (log 9). -/
  | noSuchEntry
deriving DecidableEq, Repr

/-- The reasons the model has no meaning for a step. -/
inductive Refusal where
  /-- An operation without a meaning yet. None is left. Safe. -/
  | notModelled (mnemonic : String)
  /-- The host set parameters outside the legal values: "a model has no machine for it" (R9, R145,
  R181). Raised by step. Safe (log 7). -/
  | illegalBuild
  /-- The host changed a parameter while rst = 0: "a model refuses it and gives it no meaning" (R73,
  R237). Raised by step. Safe (log 7). -/
  | parameterChange
deriving DecidableEq, Repr

/-- The machine after a reset edge (R44). BUF, OB and PF are unspecified there: zero is the model's
DESIGN CHOICE (log 1). -/
def State.reset : State where
  st := stS1
  idx := 0
  tlen := 60
  buf := Vector.replicate 60 0
  ob := Vector.replicate 60 0
  ov := false
  done := false
  pst := .idle
  k := 0
  pv := false
  pf := Vector.replicate 60 0
  errp := false
  errs := false
  errc := 0
  build := Build.default
  wiring := .composed
  env := []
  tick := 0
  trace := Trace.empty

end Sys2Proof.Machine
end

