-- ==== Sys2Proof/Machine/Fields.lean ====
section
/-! DEFINITION. The constants of 00_scope.md R8, the integer primitives of R12, and the byte order and
packing of a frame (20_memory.md R63, R64). -/

namespace Sys2Proof.Machine

/-! R8. -/

/-- HDR0, frame byte 0. -/
abbrev hdr0 : Byte := 0x55
/-- HDR1, frame byte 1. -/
abbrev hdr1 : Byte := 0xAA
/-- FRAME_LEN as the frame channel's length (u7). -/
abbrev frameLen7 : BitVec 7 := 60
/-- FRAME_LEN as TLEN holds it (u6). -/
abbrev frameLen6 : BitVec 6 := 60
/-- ANG_OFF, the raw value of 0 degrees. -/
abbrev angOff : Int := 40960
/-- FULL64, 360 degrees in units of 1/64 degree. -/
abbrev full64 : Int := 23040
/-- FULL1024, 360 degrees in units of 1/1024 degree. -/
abbrev full1024 : Int := 368640
/-- QUAD1024, 90 degrees in units of 1/1024 degree. -/
abbrev quad1024 : Int := 92160

/-- `fdiv(a, b) = ⌊a / b⌋` (R12). -/
def fdiv (a b : Int) : Int := Int.fdiv a b

/-- `fmod(a, b) = a − b × fdiv(a, b)` (R12). -/
def fmod (a b : Int) : Int := a - b * fdiv a b

/-- `asr(v, s) = fdiv(v, 2^s)` (R12). -/
def asr (v : Int) (s : Nat) : Int := fdiv v (2 ^ s)

/-- Byte i of an array (R12, R60). -/
def entry (f : Frame) (i : Nat) (h : i < 60) : Byte := f[i]

/-- `le16(A, i) = A[i] + 256 × A[i+1]`, a u16 (R63). -/
def le16 (f : Frame) (i : Nat) (h : i + 1 < 60) : BitVec 16 :=
  entry f (i + 1) h ++ entry f i (Nat.lt_of_succ_lt h)

/-- Frame byte j of a frame bus, which stands in bits [8j+7:8j] (R64). -/
def busByte (w : BitVec 480) (j : Nat) : Byte := w.extractLsb' (8 * j) 8

/-- The bus value that carries a frame (R64). -/
def pack (f : Frame) : BitVec 480 :=
  BitVec.ofFnLE fun i => (entry f (i.val / 8) (by have := i.isLt; omega)).getLsbD (i.val % 8)

/-- The frame a bus value carries (R64). -/
def unpack (w : BitVec 480) : Frame := Vector.ofFn fun j => busByte w j.val

/-- FIRST_RAW, the raw first-angle field (R81, R143). -/
def firstRaw (f : Frame) : BitVec 16 := le16 f 6 (by decide)

/-- LAST_RAW, the raw last-angle field (R81, R143). -/
def lastRaw (f : Frame) : BitVec 16 := le16 f 56 (by decide)

/-- SAMP_k, at offset 8 + 3k (R81). -/
def sampleWord (f : Frame) (k : BitVec 4) : BitVec 16 :=
  le16 f (8 + 3 * k.toNat) (by have := k.isLt; omega)

end Sys2Proof.Machine
end

