-- ==== Sys2Proof/Machine/Trig.lean ====
section
/-! DEFINITION. The sine/cosine unit CORDIC20 (42_polar_cartesian.md R170 to R175). The working values are
not architectural (10_state.md R36, R179): they are integers here, and R180 says none wraps (log 15). -/

namespace Sys2Proof.Machine

/-- ATAN[0] to ATAN[19], in units of 2^-24 degree (R171). -/
def atanTable : List Int :=
  [754974720, 445687602, 235489088, 119537938, 60000934,
   30029717, 15018523, 7509720, 3754917, 1877466,
   938734, 469367, 234684, 117342, 58671,
   29335, 14668, 7334, 3667, 1833]

/-- K_INIT (R172). -/
def kInit : Int := 2547003

/-- The working values x_i, y_i, z_i of R174. -/
structure Cordic where
  x : Int
  y : Int
  z : Int
deriving DecidableEq, Repr

/-- One iteration of R174: both new coordinates come from the old pair. -/
def cordicIter (v : Cordic) (i : Nat) (atan : Int) : Cordic :=
  if v.z ≥ 0 then ⟨v.x - asr v.y i, v.y + asr v.x i, v.z - atan⟩
  else ⟨v.x + asr v.y i, v.y - asr v.x i, v.z + atan⟩

/-- The iterations i, i + 1, ... with the given table entries (R174). -/
def cordicFrom : Nat → List Int → Cordic → Cordic
  | _, [], v => v
  | i, a :: as, v => cordicFrom (i + 1) as (cordicIter v i a)

/-- The 20 iterations for a remainder r (R174). -/
def cordic (r : Int) : Cordic := cordicFrom 0 atanTable ⟨kInit, 0, r * 16384⟩

/-- c of R175. -/
def cosQ (r : Int) : Int := asr ((cordic r).x + 32) 6

/-- s of R175. -/
def sinQ (r : Int) : Int := asr ((cordic r).y + 32) 6

/-- t, the angle within one turn (R173). -/
def turn (theta : Int) : Int := fmod theta full1024

/-- q, the quadrant (R173). -/
def quadrant (theta : Int) : Int := fdiv (turn theta) quad1024

/-- r, the remainder below 90 degrees (R173). -/
def remainder (theta : Int) : Int := fmod (turn theta) quad1024

/-- SINCOS(theta) = (S, C) (R170, R175). -/
def sincos (theta : Int) : Int × Int :=
  let c := cosQ (remainder theta)
  let s := sinQ (remainder theta)
  if quadrant theta = 0 then (s, c)
  else if quadrant theta = 1 then (c, -s)
  else if quadrant theta = 2 then (-s, -c)
  else (-c, s)

end Sys2Proof.Machine
end

