-- ==== Sys2Proof/Machine/Point.lean ====
section
/-! DEFINITION. The field decoders of 41_projector.md (R143 to R148), the Cartesian conversion of
42_polar_cartesian.md (R176 to R178) and the point record (R149), over integers that are stored at the
widths of 10_state.md R23. -/

namespace Sys2Proof.Machine

/-- `A(raw) = raw − 40960`, in units of 1/64 degree (R143). -/
def angle (raw : BitVec 16) : Int := raw.toNat - angOff

/-- A_last_adj of R144, the COMPARE test. A build has no other WRAP_MODE (R145). -/
def lastAdjusted (aFirst aLast : Int) : Int := if aLast < aFirst then aLast + full64 else aLast

/-- `span = A_last_adj − A_first` (R146). -/
def span (f : Frame) : Int :=
  lastAdjusted (angle (firstRaw f)) (angle (lastRaw f)) - angle (firstRaw f)

/-- `theta_k = 16 × A_first + k × span`, in units of 1/1024 degree (R147). -/
def theta (f : Frame) (k : BitVec 4) : Int := 16 * angle (firstRaw f) + k.toNat * span f

/-- `SAMP_k AND (2^DIST_MASK_BITS − 1)`, a u14 (R82, R148). -/
def dist (p : Params) (f : Frame) (k : BitVec 4) : BitVec 14 :=
  (sampleWord f k &&& BitVec.ofNat 16 (2 ^ p.distMaskBits - 1)).setWidth 14

/-- `rnd(P) = fdiv(P + SCALE_DIV × 32768, SCALE_DIV × 65536)` (R176). -/
def rnd (p : Params) (product : Int) : Int :=
  fdiv (product + p.scaleDiv.toNat * 32768) (p.scaleDiv.toNat * 65536)

/-- `x_k = ORIGIN_X + rnd(S_k × dist_k)` (R177). -/
def pointX (p : Params) (f : Frame) (k : BitVec 4) : Int :=
  p.originX.toInt + rnd p ((sincos (theta f k)).1 * (dist p f k).toNat)

/-- `y_k = ORIGIN_Y − rnd(C_k × dist_k)` (R178). -/
def pointY (p : Params) (f : Frame) (k : BitVec 4) : Int :=
  p.originY.toInt - rnd p ((sincos (theta f k)).2 * (dist p f k).toNat)

/-- `POINT(PF, k)` (R149). -/
def point (p : Params) (f : Frame) (k : BitVec 4) : PointRecord where
  k := k
  last := k == 15
  x := BitVec.ofInt 18 (pointX p f k)
  y := BitVec.ofInt 18 (pointY p f k)
  dist := dist p f k
  theta := BitVec.ofInt 22 (theta f k)
  firstRaw := firstRaw f
  lastRaw := lastRaw f
  firstAng := BitVec.ofInt 17 (angle (firstRaw f))
  lastAng := BitVec.ofInt 17 (angle (lastRaw f))

end Sys2Proof.Machine
end

