-- ==== Sys2Proof/Machine/Flags.lean ====
section
/-! DEFINITION. The flags (10_state.md R30, R31, R37 to R40): how OV and DONE follow completion and
take, and how a malformed frame's cause is computed and recorded. -/

namespace Sys2Proof.Machine

/-- The LEN cause: `len != 60` (R141). -/
def causeLen (len : BitVec 7) : Bool := len != frameLen7

/-- The HDR cause: `(len < 2) or (f[0] != 0x55) or (f[1] != 0xAA)` (R141). -/
def causeHdr (len : BitVec 7) (f0 f1 : Byte) : Bool := len.toNat < 2 || f0 != hdr0 || f1 != hdr1

/-- `CHECK(f, len)`: bit 0 LEN, bit 1 HDR (R141). It depends on the frame's first two bytes only. -/
def checkCause (len : BitVec 7) (f0 f1 : Byte) : BitVec 2 :=
  BitVec.ofBool (causeHdr len f0 f1) ++ BitVec.ofBool (causeLen len)

/-- DONE and OV where a byte completes a frame: both 1 (R107). -/
def setDone (s : State) : State := { s with done := true, ov := true }

/-- DONE where an operation completes no frame: 0 (R31). -/
def clearDone (s : State) : State := { s with done := false }

/-- OV where the held frame is taken: 0 (R113). A completion at the same edge sets it again (R111). -/
def clearOv (s : State) : State := { s with ov := false }

/-- ERRP, ERRS and ERRC where a malformed frame is refused: `ERRC OR cause`, so bits are only ever set
(R39, R142, R211). -/
def recordError (cause : BitVec 2) (s : State) : State :=
  { s with errp := true, errs := true, errc := s.errc ||| cause }

/-- The two pulse registers are 0 after an edge that does not set them (R31, R37, R155). -/
def clearPulses (s : State) : State := { s with done := false, errp := false }

end Sys2Proof.Machine
end

