-- ==== Sys2Proof/Machine/Operands.lean ====
section
/-! DEFINITION. What the operations read: the input levels of the current cycle, the frame channel in both
arrangements (43_top.md R200), and the acceptance conditions (40_deframer.md R100, 41_projector.md R140). -/

namespace Sys2Proof.Machine

/-- The input levels of the current cycle: the head of `env`, or free levels where it lists none (R20;
log 3). -/
def pins (s : State) : Pins :=
  match s.env with
  | p :: _ => p
  | [] => Config.hostDrive s.tick

/-- fo_data: the held frame, packed; any value while OV = 0 (R114; log 13). -/
def foData (s : State) : BitVec 480 := if s.ov then pack s.ob else Config.idleFoData s.tick

/-- fi_ready: PRJ can accept a frame (R140). -/
def fiReady (s : State) : Bool := !(pins s).rst && s.pst == .idle

/-- fo_ready of DFR: PRJ's fi_ready, or the host's level with the units alone (R200, R239). -/
def foReady (s : State) : Bool :=
  match s.wiring with
  | .composed => fiReady s
  | .unitsAlone => (pins s).foReady

/-- fi_valid of PRJ: DFR's fo_valid, or the host's level (R200). -/
def fiValid (s : State) : Bool :=
  match s.wiring with
  | .composed => s.ov
  | .unitsAlone => (pins s).fiValid

/-- fi_len of PRJ: DFR's fo_len, "always 60", or the host's (R22, R114, R200). -/
def fiLen (s : State) : BitVec 7 :=
  match s.wiring with
  | .composed => frameLen7
  | .unitsAlone => (pins s).fiLen

/-- fi_data of PRJ: DFR's fo_data, or the host's (R200). -/
def fiData (s : State) : BitVec 480 :=
  match s.wiring with
  | .composed => foData s
  | .unitsAlone => (pins s).fiData

/-- The next accepted byte would complete a frame: `(ST = COL) and (IDX = TLEN - 1)` (R100). -/
def completes (s : State) : Bool := s.st == stCol && s.idx.toNat + 1 == s.tlen.toNat

/-- in_ready (R100). -/
def inReady (s : State) : Bool :=
  !(pins s).rst && !(pins s).sclr && !(completes s && s.ov && !foReady s)

/-- acc: DFR accepts the offered byte (R100). -/
def acc (s : State) : Bool := (pins s).inValid && inReady s

/-- take: the held frame is transferred (R113). Nothing is taken at an edge with rst = 1 (R217). -/
def take (s : State) : Bool := !(pins s).rst && s.ov && foReady s

/-- accf: PRJ accepts the offered frame (R140). -/
def accf (s : State) : Bool := fiValid s && fiReady s

/-- The draw of this edge (R12, R150). -/
def draw (s : State) : Bool := (pins s).draw

end Sys2Proof.Machine
end

