-- ==== Sys2Proof/Machine/Ops.lean ====
section
/-! DEFINITION. The named operations over the registers and arrays that the meanings share, and taking the
one exception, MalformedFrame (60_exceptions.md R210). -/

namespace Sys2Proof.Machine

/-- An outcome of the machine. -/
abbrev Result := Host.Outcome State Fault Refusal

/-- Go on with the next state; stop where the first part stopped. -/
def andThen (r : Result) (f : State → Result) : Result :=
  match r with
  | .next s => f s
  | .fault e => .fault e
  | .refused e => .refused e

/-- `BUF[i] <- b`. An index of 60 to 63 addresses nothing (R60; log 9). -/
def storeBuf (i : BitVec 6) (b : Byte) (s : State) : Result :=
  if h : i.toNat < 60 then .next { s with buf := s.buf.set i.toNat b h } else .fault .noSuchEntry

/-- The byte counts as accepted in the model's record (log 5). -/
def noteByte (b : Byte) (s : State) : State :=
  { s with trace := { s.trace with accepted := s.trace.accepted ++ [.byte b] } }

/-- The soft clear counts in the model's record (log 5). -/
def noteSclr (s : State) : State :=
  { s with trace := { s.trace with accepted := s.trace.accepted ++ [.sclr] } }

/-- SeekHeader1 on the byte 0x55: `IDX <- 0; BUF[0] <- b; IDX <- 1; ST <- S2; done = 0` (R101). -/
def seekHit (b : Byte) (s : State) : State :=
  clearDone { s with buf := s.buf.set 0 b, idx := 1, st := stS2 }

/-- SeekHeader1 on any other byte: `IDX <- 0; done = 0` (R102). -/
def seekMiss (s : State) : State := clearDone { s with idx := 0 }

/-- `ST <- S1`, before the same byte is processed again in SeekHeader1 (R104, R105, R108). -/
def toSeek (s : State) : State := { s with st := stS1 }

/-- The 60th byte: BUF[59] is stored, BUF is copied whole to OB, OV and DONE are set, and DFR is back in
S1 with IDX 0 (R107; 20_memory.md R67). -/
def completeFrame (b : Byte) (s : State) : State :=
  setDone
    { s with
      buf := s.buf.set 59 b
      ob := s.buf.set 59 b
      st := stS1
      idx := 0
      trace := { s.trace with completed := s.trace.completed ++ [s.buf.set 59 b] } }

/-- The held frame leaves DFR: OV falls, and the frame counts as handed off (R113). -/
def handOff (s : State) : State :=
  clearOv { s with trace := { s.trace with handed := s.trace.handed ++ [s.ob] } }

/-- PF takes a frame whole (R151; R67, R72). -/
def captureFrame (f : Frame) (s : State) : State :=
  { s with pf := f, trace := { s.trace with admitted := s.trace.admitted ++ [f] } }

/-- The consumer takes POINT(PF, k) (R152, R153). -/
def takePoint (k : BitVec 4) (s : State) : State :=
  { s with
    trace := { s.trace with points := s.trace.points ++ [point s.build.params s.pf k] } }

/-- `raise MalformedFrame(cause)` (R142, R210, R211): ERRP, ERRS and ERRC change and nothing else. There is
no trap entry: nothing is saved, no mode changes, nothing vectors (R218), and there is no return from it
(R219), so no operation stands beside this one. -/
def raiseMalformed (cause : BitVec 2) (s : State) : State := recordError cause s

/-- RESET (R44, R231, R232): every register at its reset value; BUF, OB and PF unspecified, a fresh free
value each (log 2); the model's record starts anew (log 5). The build, the arrangement and the inputs
are not registers. -/
def resetRegisters (s : State) : State :=
  { s with
    st := stS1
    idx := 0
    tlen := frameLen6
    buf := Config.resetArray .buf s.tick
    ob := Config.resetArray .ob s.tick
    ov := false
    done := false
    pst := .idle
    k := 0
    pv := false
    pf := Config.resetArray .pf s.tick
    errp := false
    errs := false
    errc := 0
    trace := Trace.empty }

end Sys2Proof.Machine
end

