-- ==== Sys2Proof/Machine/Control.lean ====
section
/-! DEFINITION. RESET of both units (70_reset_and_hazards.md R230, R231, R232; 43_top.md R202). -/

namespace Sys2Proof.Machine

/-- RESET: every other input, sclr among them, is ignored (R230). -/
def execReset (_sclr : Bool) (s : State) : Result := .next (resetRegisters s)

end Sys2Proof.Machine
end

