-- ==== Sys2Proof/Machine/Deframer.lean ====
section
/-! DEFINITION. The DFR operations (40_deframer.md R101 to R109, R113). `b` is the accepted byte. The key
field IDX of an operation restates the register IDX, and the meaning reads the register (log 10). -/

namespace Sys2Proof.Machine

/-- DFR_HDR1_MATCH (R101): ST = S1, b = 0x55. -/
def execDfrHdr1Match (_idx : BitVec 6) (s : State) : Result :=
  .next (seekHit hdr0 (noteByte hdr0 s))

/-- DFR_HDR1_SKIP (R102): ST = S1, any other byte. -/
def execDfrHdr1Skip (_idx : BitVec 6) (b : Byte) (s : State) : Result :=
  .next (seekMiss (noteByte b s))

/-- DFR_HDR2_MATCH (R103): `BUF[IDX] <- 0xAA; IDX <- IDX + 1; TLEN <- 60; ST <- COL; done = 0`. -/
def execDfrHdr2Match (_idx : BitVec 6) (s : State) : Result :=
  andThen (storeBuf s.idx hdr1 (noteByte hdr1 s)) fun t =>
    .next (clearDone { t with idx := t.idx + 1, tlen := frameLen6, st := stCol })

/-- DFR_HDR2_FAIL_RESYNC (R104): back to S1, where the same 0x55 matches. -/
def execDfrHdr2FailResync (_idx : BitVec 6) (s : State) : Result :=
  .next (seekHit hdr0 (toSeek (noteByte hdr0 s)))

/-- DFR_HDR2_FAIL_SKIP (R105): back to S1, where the same byte is skipped. -/
def execDfrHdr2FailSkip (_idx : BitVec 6) (b : Byte) (s : State) : Result :=
  .next (seekMiss (toSeek (noteByte b s)))

/-- DFR_COL_STORE (R106): `if IDX < TLEN then BUF[IDX] <- b; IDX <- IDX + 1`, and `done = 0`. Where IDX
reaches TLEN, which includes IDX = 60 = TLEN, R110 completes a frame and R106 does not: following R106 is the
model's choice, in states R115 rules out (log 18). -/
def execDfrColStore (_idx : BitVec 6) (b : Byte) (s : State) : Result :=
  if s.idx.toNat < s.tlen.toNat then
    andThen (storeBuf s.idx b (noteByte b s)) fun t => .next (clearDone { t with idx := t.idx + 1 })
  else .next (clearDone (noteByte b s))

/-- DFR_COL_LAST (R107): the 60th byte. With TLEN other than 60, where R110 says otherwise, following R107
is the model's choice (log 18). -/
def execDfrColLast (b : Byte) (s : State) : Result := .next (completeFrame b (noteByte b s))

/-- DFR_RSV_ST3 (R108): ST <- S1, then the byte is processed as in S1. -/
def execDfrRsvSt3 (_idx : BitVec 6) (b : Byte) (s : State) : Result :=
  if b = hdr0 then .next (seekHit b (toSeek (noteByte b s)))
  else .next (seekMiss (toSeek (noteByte b s)))

/-- DFR_SCLR (R109): `ST <- S1; IDX <- 0`, and DONE' = 0. -/
def execDfrSclr (s : State) : Result := .next (clearDone { toSeek (noteSclr s) with idx := 0 })

/-- DFR_FO_TAKE (R113): the held frame is handed off. -/
def execDfrFoTake (s : State) : Result := .next (handOff s)

end Sys2Proof.Machine
end

