-- ==== Sys2Proof/Machine/Projector.lean ====
section
/-! DEFINITION. The PRJ operations (41_projector.md R142, R151 to R154). The key fields PV and K of the
point operations restate registers, and the meaning reads the registers (log 10). -/

namespace Sys2Proof.Machine

/-- PRJ_ACCEPT (R151): `PF <- unpack(fi_data); PST <- RUN; K <- 0; PV <- draw; ERRP <- 0`. -/
def execPrjAccept (s : State) : Result :=
  .next { captureFrame (unpack (fiData s)) s with pst := .run, k := 0, pv := draw s, errp := false }

/-- PRJ_MALFORMED (R142): the frame is consumed and MalformedFrame is raised with its cause. -/
def execPrjMalformed (len : BitVec 7) (b1 b0 : Byte) (s : State) : Result :=
  .next (raiseMalformed (checkCause len b0 b1) s)

/-- PRJ_PT_NEXT (R152): the consumer takes POINT(PF, K); `K <- K + 1; PV <- draw`. -/
def execPrjPtNext (_k : BitVec 4) (s : State) : Result :=
  .next { takePoint s.k s with k := s.k + 1, pv := draw s }

/-- PRJ_PT_LAST (R153): the consumer takes POINT(PF, 15); `PST <- IDLE; K <- 0; PV <- 0`. -/
def execPrjPtLast (s : State) : Result :=
  .next { takePoint 15 s with pst := .idle, k := 0, pv := false }

/-- PRJ_PT_WAIT (R154): `if PV = 1 then PV <- 1 else PV <- draw`. -/
def execPrjPtWait (_pv _ptReady : Bool) (_k : BitVec 4) (s : State) : Result :=
  .next { s with pv := s.pv || draw s }

end Sys2Proof.Machine
end

