-- ==== Sys2Proof/Machine/Dispatch.lean ====
section
/-! DEFINITION. One arm per operation. -/

namespace Sys2Proof.Machine

def exec (i : Instr) (s : State) : Host.Outcome State Fault Refusal :=
  match i with
  | .dfrHdr1Match idx => Sys2Proof.Machine.execDfrHdr1Match idx s
  | .dfrHdr1Skip idx b => Sys2Proof.Machine.execDfrHdr1Skip idx b s
  | .dfrHdr2Match idx => Sys2Proof.Machine.execDfrHdr2Match idx s
  | .dfrHdr2FailResync idx => Sys2Proof.Machine.execDfrHdr2FailResync idx s
  | .dfrHdr2FailSkip idx b => Sys2Proof.Machine.execDfrHdr2FailSkip idx b s
  | .dfrColLast b => Sys2Proof.Machine.execDfrColLast b s
  | .dfrColStore idx b => Sys2Proof.Machine.execDfrColStore idx b s
  | .dfrRsvSt3 idx b => Sys2Proof.Machine.execDfrRsvSt3 idx b s
  | .prjAccept => Sys2Proof.Machine.execPrjAccept s
  | .prjMalformed len b1 b0 => Sys2Proof.Machine.execPrjMalformed len b1 b0 s
  | .prjPtLast => Sys2Proof.Machine.execPrjPtLast s
  | .prjPtNext k => Sys2Proof.Machine.execPrjPtNext k s
  | .prjPtWait pv ptReady k => Sys2Proof.Machine.execPrjPtWait pv ptReady k s
  | .reset sclr => Sys2Proof.Machine.execReset sclr s
  | .dfrSclr => Sys2Proof.Machine.execDfrSclr s
  | .dfrFoTake => Sys2Proof.Machine.execDfrFoTake s

end Sys2Proof.Machine
end

