-- ==== Sys2Proof/Machine/Select.lean ====
section
/-! DEFINITION. What an edge does: the dispatch keys it forms (30_encoding.md R84 to R89), the operations
they select, the order in which the model applies them (log 8), and the host's parameter setting (R73,
R237). -/

namespace Sys2Proof.Machine

/-- The DFR key `{ST, IDX, in_data}` (R84). -/
def dfrKey (s : State) : BitVec 16 := dfrKeyOf s.st s.idx (pins s).inData

/-- The PRJ frame key `{fi_len, fi_data[15:8], fi_data[7:0]}` (R86). -/
def pfkKey (s : State) : BitVec 23 :=
  pfkKeyOf (fiLen s) (busByte (fiData s) 1) (busByte (fiData s) 0)

/-- The PRJ point key `{PV, pt_ready, K}` (R88). -/
def ptkKey (s : State) : BitVec 6 := ptkKeyOf s.pv (pins s).ptReady s.k

/-- The control key `{rst, sclr}` (R89). -/
def ctlKey (s : State) : BitVec 2 := pairKeyOf (pins s).rst (pins s).sclr

/-- The frame-channel key `{OV, fo_ready}` (R89). -/
def foxKey (s : State) : BitVec 2 := pairKeyOf s.ov (foReady s)

/-- The keys formed at an edge. With rst = 1 the control key alone: RESET takes precedence over every
other operation (R89, R217). Else: a frame key where PRJ accepts a frame (R86), a point key in RUN (R88),
the frame-channel key, the control key, and a DFR key where DFR accepts a byte (R84). The order is the one
in which the model applies the operations; it cannot be seen (log 8). -/
def formedKeys (s : State) : List Key :=
  if (pins s).rst then [.ctl (ctlKey s)]
  else
    (if accf s then [.pfk (pfkKey s)] else [])
      ++ (if s.pst = .run then [.ptk (ptkKey s)] else [])
      ++ [.fox (foxKey s), .ctl (ctlKey s)]
      ++ (if acc s then [.dfr (dfrKey s)] else [])

/-- The operations an edge runs. -/
def selected (s : State) : List Instr := (formedKeys s).filterMap decodeOk

/-- Run operations one after the other. -/
def execAll : List Instr → State → Result
  | [], s => .next s
  | i :: is, s => andThen (exec i s) (execAll is)

/-- The build after an edge, or why the step is refused. Without a setting, the build stays. A setting
that differs from the build needs rst = 1, and must be legal (R9, R73, R145, R181, R237; log 7). -/
def admitParams (s : State) : Except Refusal Build :=
  match (pins s).params with
  | none => .ok s.build
  | some p =>
    if p = s.build.params then .ok s.build
    else if (pins s).rst then
      (if h : legalParams p = true then .ok ⟨p, h⟩ else .error .illegalBuild)
    else .error .parameterChange

/-- What every edge does before its operations: DONE and ERRP are 0 unless one sets them (R111, R155). -/
def beginEdge (s : State) : State := clearPulses s

/-- What every edge does after its operations: the next cycle begins, under the build b. -/
def endEdge (b : Build) (s : State) : State :=
  { s with build := b, env := s.env.tail, tick := s.tick + 1 }

/-- One edge (43_top.md R200). -/
def edge (s : State) : Result :=
  match admitParams s with
  | .error e => .refused e
  | .ok b => andThen (execAll (selected s) (beginEdge s)) fun t => .next (endEdge b t)

/-- s with the input levels p in the current cycle. -/
def drive (p : Pins) (s : State) : State := { s with env := p :: s.env.tail }

/-- s arranged so that the next edge forms the given key and runs its operation alone: the registers and
input levels the key is made of take its bits, and the conditions under which the key is formed hold
(R84, R86, R88, R89; log 12). -/
def placeKey (key : Key) (s : State) : State :=
  match key with
  | .dfr w =>
    drive { Pins.idle with inValid := true, inData := keyByte w }
      { s with st := w.extractLsb' 14 2, idx := keyIdx w, ov := false, pst := .idle }
  | .pfk w =>
    drive { Pins.idle with fiValid := true, fiLen := keyLen w, fiData := (w.setWidth 16).setWidth 480 }
      { s with wiring := .unitsAlone, pst := .idle }
  | .ptk w =>
    drive { Pins.idle with ptReady := keyPtReady w }
      { s with pst := .run, pv := keyPv w, k := keyK w }
  | .ctl w =>
    drive { Pins.idle with rst := w.getLsbD 1, sclr := w.getLsbD 0 }
      { s with ov := false, pst := .idle }
  | .fox w =>
    drive { Pins.idle with foReady := w.getLsbD 0 }
      { s with wiring := .unitsAlone, ov := w.getLsbD 1, pst := .idle }

end Sys2Proof.Machine
end

