-- ==== Sys2Proof/Machine/Step.lean ====
section
/-! DEFINITION. The step: one rising edge of `clk` (10_state.md R20; 43_top.md R200). -/

namespace Sys2Proof.Machine

/-- One edge of the MLFSP. -/
def step (s : State) : Host.Outcome State Fault Refusal := edge s

/-- s arranged so that the next edge runs the operation of a table row's bits (log 12). -/
def State.withFetchWord (s : State) (nbits w : Nat) : State :=
  match tableKey nbits w with
  | some key => placeKey key s
  | none => s

end Sys2Proof.Machine
end

