-- ==== Sys2Proof/Machine/Ports.lean ====
section
/-! DEFINITION. The output ports (10_state.md R22, R23, R24; 43_top.md R201) as functions of the state. -/

namespace Sys2Proof.Machine

/-- The output levels of one cycle. -/
structure Outputs where
  inReady : Bool
  foValid : Bool
  foData : BitVec 480
  foLen : BitVec 7
  frameDone : Bool
  fiReady : Bool
  ptValid : Bool
  /-- The `pt_*` payload ports (R95). -/
  pt : PointRecord
  errMalformed : Bool
  errSticky : Bool
  errCause : BitVec 2
  monValid : Bool
  monData : BitVec 480
deriving DecidableEq, Repr

/-- pt_valid: PV in RUN, 0 in IDLE (R34, R150). -/
def ptValid (s : State) : Bool := s.pst == .run && s.pv

/-- The `pt_*` payload: POINT(PF, K) while pt_valid = 1, else any value (R150; log 13). -/
def ptPayload (s : State) : PointRecord :=
  if ptValid s then point s.build.params s.pf s.k else Config.idlePoint s.tick

/-- mon_valid = fo_valid and fi_ready (R201). The tap is a port of the top level alone (R24): that the model
computes it with the units alone too, where it marks no hand-off, is its DESIGN CHOICE (log 6). -/
def monValid (s : State) : Bool := s.ov && fiReady s

/-- Every output port in the current cycle: of both units (R22, R23) and of the top level (R24). With the
units alone, `monValid` and `monData` stand for no port (log 6). -/
def outputs (s : State) : Outputs where
  inReady := inReady s
  foValid := s.ov
  foData := foData s
  foLen := frameLen7
  frameDone := s.done
  fiReady := fiReady s
  ptValid := ptValid s
  pt := ptPayload s
  errMalformed := s.errp
  errSticky := s.errs
  errCause := s.errc
  monValid := monValid s
  monData := foData s

end Sys2Proof.Machine
end

