-- ==== Sys2Proof/Machine/Stimulus.lean ====
section
/-! DEFINITION. The stimulus notation of 30_encoding.md R93 and R94: commands, the input levels each drives,
and the frame a FRAME line builds. -/

namespace Sys2Proof.Machine

/-- A command of R93; `draw` is its line DRAW, `frameIn` the line FRAMEIN of R94. -/
inductive Command where
  | reset
  | byte (b : Byte)
  | idle (n : Nat)
  | sclr
  | ptReady (v : Bool)
  | draw (v : Bool)
  | drain
  | frameIn (len : BitVec 7) (f : Frame)
deriving DecidableEq, Repr

/-- The levels a cycle has where its command names none: 0, but for pt_ready and the draw, which hold
their last level (R93). -/
def baseLevels (ptReady draw : Bool) : Pins := { Pins.idle with ptReady := ptReady, draw := draw }

/-- A cycle's input levels and the commands and levels that remain after it. -/
structure Cycle where
  levels : Pins
  rest : List Command
  ptReady : Bool
  draw : Bool

/-- The next cycle of a program, or none when it has ended. A byte is repeated until in_ready = 1, a
FRAMEIN until fi_ready = 1; DRAIN ends at the first cycle in which PST = IDLE and OV = 0 (R93, R94). -/
def nextCycle : List Command → Bool → Bool → State → Option Cycle
  | [], _, _, _ => none
  | .ptReady v :: cs, _, d, s => nextCycle cs v d s
  | .draw v :: cs, r, _, s => nextCycle cs r v s
  | .idle 0 :: cs, r, d, s => nextCycle cs r d s
  | .idle (n + 1) :: cs, r, d, _ => some ⟨baseLevels r d, .idle n :: cs, r, d⟩
  | .reset :: cs, r, d, _ => some ⟨{ baseLevels r d with rst := true }, cs, r, d⟩
  | .sclr :: cs, r, d, _ => some ⟨{ baseLevels r d with sclr := true }, cs, r, d⟩
  | .drain :: cs, r, d, s =>
    if s.pst = .idle ∧ s.ov = false then nextCycle cs r d s
    else some ⟨baseLevels r d, .drain :: cs, r, d⟩
  | .byte b :: cs, r, d, s =>
    let p := { baseLevels r d with inValid := true, inData := b }
    some ⟨p, if inReady (drive p s) then cs else .byte b :: cs, r, d⟩
  | .frameIn len f :: cs, r, d, s =>
    let p := { baseLevels r d with fiValid := true, fiLen := len, fiData := pack f }
    some ⟨p, if fiReady (drive p s) then cs else .frameIn len f :: cs, r, d⟩

/-- Run a program for at most n cycles. -/
def runCommands : Nat → List Command → Bool → Bool → State → Result
  | 0, _, _, _, s => .next s
  | n + 1, cs, r, d, s =>
    match nextCycle cs r d s with
    | none => .next s
    | some c => andThen (step (drive c.levels s)) (runCommands n c.rest c.ptReady c.draw)

/-- `BYTES h1 ... hn` (R94). -/
def bytesCommands (bs : List Byte) : List Command := bs.map .byte

/-- `FILL n hh` (R94). -/
def fillCommands (n : Nat) (b : Byte) : List Command := List.replicate n (.byte b)

/-- The byte at offset i of `FRAME first=F last=L d=[...] s=[...] x=[...]` (R94). -/
def frameLineByte (first last : BitVec 16) (d : Vector (BitVec 16) 16) (s : Vector Byte 16)
    (x : Vector Byte 6) (i : Nat) : Byte :=
  if i = 0 then hdr0
  else if i = 1 then hdr1
  else if i < 6 then x.getD (i - 2) 0
  else if i = 6 then first.extractLsb' 0 8
  else if i = 7 then first.extractLsb' 8 8
  else if i < 56 then
    (if (i - 8) % 3 = 0 then (d.getD ((i - 8) / 3) 0).extractLsb' 0 8
     else if (i - 8) % 3 = 1 then (d.getD ((i - 8) / 3) 0).extractLsb' 8 8
     else s.getD ((i - 8) / 3) 0)
  else if i = 56 then last.extractLsb' 0 8
  else if i = 57 then last.extractLsb' 8 8
  else x.getD (i - 54) 0

/-- The 60 bytes of a FRAME line (R94). -/
def frameLine (first last : BitVec 16) (d : Vector (BitVec 16) 16) (s : Vector Byte 16)
    (x : Vector Byte 6) : Frame :=
  Vector.ofFn fun i => frameLineByte first last d s x i.val

/-- The FRAME line as commands (R94). -/
def frameCommands (f : Frame) : List Command := bytesCommands f.toList

/-- `ANGLE deg`: the raw value of an angle given in units of 1/64 degree, `(deg + 640) × 64` (R94). -/
def rawOfAngle (a : Int) : BitVec 16 := BitVec.ofInt 16 (a + angOff)

end Sys2Proof.Machine
end

