-- ==== Sys2Proof/Machine/Transaction.lean ====
section
/-! DEFINITION. The second level of 00_scope.md R13: the transaction-level functions DFR_STEP (R110) and
PROJECT (R156), the runs over them (R117, R204), and the two cycle-level steps as the rules write them
(R111, R155). The step of the model applies the operations of the opcode table instead; that the two agree
is for statements to say. -/

namespace Sys2Proof.Machine

/-- The registers DFR_STEP takes and returns (R110). -/
structure DfrRegs where
  st : BitVec 2
  idx : BitVec 6
  tlen : BitVec 6
  buf : Frame
deriving DecidableEq, Repr

/-- The recognizer's registers in a state. -/
def dfrRegs (s : State) : DfrRegs := ⟨s.st, s.idx, s.tlen, s.buf⟩

/-- The recognizer after reset (R44), over the unspecified contents of BUF. -/
def resetDfrRegs (buf : Frame) : DfrRegs := ⟨stS1, 0, frameLen6, buf⟩

/-- `BUF[IDX] <- b; IDX <- IDX + 1` (R110). DFR_STEP is total, and R60 gives an index of 60 to 63 no entry:
that such a store changes no byte while IDX still advances, modulo 64, is the model's DESIGN CHOICE (log 9).
The operations fault there instead (`storeBuf`). -/
def pushByte (r : DfrRegs) (b : Byte) : DfrRegs :=
  { r with buf := r.buf.setIfInBounds r.idx.toNat b, idx := r.idx + 1 }

/-- The second `if` of R110: the byte is processed in SeekHeader1. -/
def seekStep (r : DfrRegs) (b : Byte) : DfrRegs × Bool :=
  if b = hdr0 then ({ r with st := stS2, idx := 1, buf := r.buf.set 0 b }, false)
  else ({ r with st := stS1, idx := 0 }, false)

/-- The last part of R110: the byte is processed in Collecting, and the frame is complete when the index
reaches the target length. R106 and R107 differ from this outside R115 (log 18). -/
def collectStep (r : DfrRegs) (b : Byte) : DfrRegs × Bool :=
  let q := if r.idx.toNat < r.tlen.toNat then pushByte r b else r
  if q.idx = q.tlen then ({ q with st := stS1, idx := 0 }, true) else (q, false)

/-- `DFR_STEP(ST, IDX, TLEN, BUF, b)` (R110): the registers after the byte, and done. -/
def dfrStep (r : DfrRegs) (b : Byte) : DfrRegs × Bool :=
  if r.st = stCol then collectStep r b
  else if r.st = stS2 ∧ b = hdr1 then ({ pushByte r b with tlen := frameLen6, st := stCol }, false)
  else seekStep r b

/-- A soft clear between two bytes: "set ST to S1 and IDX to 0" (R117). -/
def dfrClear (r : DfrRegs) : DfrRegs := { r with st := stS1, idx := 0 }

/-- DFR_STEP over a sequence of events, with the frames it completes in order (R117). -/
def dfrRun (r : DfrRegs) : List DfrEvent → DfrRegs × List Frame
  | [] => (r, [])
  | .sclr :: es => dfrRun (dfrClear r) es
  | .byte b :: es =>
    if (dfrStep r b).2 then
      ((dfrRun (dfrStep r b).1 es).1, (dfrStep r b).1.buf :: (dfrRun (dfrStep r b).1 es).2)
    else dfrRun (dfrStep r b).1 es

/-- `[POINT(f, 0), ..., POINT(f, 15)]` (R156). -/
def framePoints (p : Params) (f : Frame) : List PointRecord :=
  (List.range 16).map fun k => point p f (BitVec.ofNat 4 k)

/-- `PROJECT(f, len)` (R156): MalformedFrame with its cause, or the 16 points. -/
def project (p : Params) (f : Frame) (len : BitVec 7) : Except (BitVec 2) (List PointRecord) :=
  if checkCause len f[0] f[1] = 0 then .ok (framePoints p f) else .error (checkCause len f[0] f[1])

/-- The point records `PROJECT(f, 60)` gives; none for a malformed frame (R156, R204). -/
def projected (p : Params) (f : Frame) : List PointRecord :=
  match project p f frameLen7 with
  | .ok rs => rs
  | .error _ => []

/-- `PROJECT(F_1, 60) ++ PROJECT(F_2, 60) ++ ...` for the frames DFR completes for a sequence of events
since reset (R204). -/
def endToEnd (p : Params) (buf : Frame) (es : List DfrEvent) : List PointRecord :=
  (dfrRun (resetDfrRegs buf) es).2.flatMap (projected p)

/-- The recognizer's part of R111. -/
def dfrNext (s : State) : DfrRegs × Bool :=
  if acc s then dfrStep (dfrRegs s) (pins s).inData
  else if (pins s).sclr then (dfrClear (dfrRegs s), false)
  else (dfrRegs s, false)

/-- DFR's registers after an edge, as R111 writes them; every other field stays. -/
def dfrEdge (s : State) : State :=
  if (pins s).rst then
    { s with
      st := stS1, idx := 0, tlen := frameLen6, ov := false, done := false
      buf := Config.resetArray .buf s.tick
      ob := Config.resetArray .ob s.tick }
  else
    { s with
      st := (dfrNext s).1.st
      idx := (dfrNext s).1.idx
      tlen := (dfrNext s).1.tlen
      buf := (dfrNext s).1.buf
      ov := (dfrNext s).2 || (s.ov && !take s)
      ob := if (dfrNext s).2 then (dfrNext s).1.buf else s.ob
      done := (dfrNext s).2 }

/-- PRJ's frame check at an edge in IDLE: `CHECK(unpack(fi_data), fi_len)` (R155). -/
def offeredCause (s : State) : BitVec 2 :=
  checkCause (fiLen s) (unpack (fiData s))[0] (unpack (fiData s))[1]

/-- PRJ's registers after an edge, as R155 writes them; every other field stays. -/
def prjEdge (s : State) : State :=
  if (pins s).rst then
    { s with
      pst := .idle, k := 0, pv := false, errp := false, errs := false, errc := 0
      pf := Config.resetArray .pf s.tick }
  else
    match s.pst with
    | .idle =>
      if accf s then
        if offeredCause s ≠ 0 then
          { s with errp := true, errs := true, errc := s.errc ||| offeredCause s }
        else
          { s with pf := unpack (fiData s), pst := .run, k := 0, pv := draw s, errp := false }
      else { s with errp := false }
    | .run =>
      if s.pv && (pins s).ptReady then
        if s.k = 15 then { s with pst := .idle, k := 0, pv := false, errp := false }
        else { s with k := s.k + 1, pv := draw s, errp := false }
      else { s with pv := s.pv || draw s, errp := false }

end Sys2Proof.Machine
end

