-- ==== Sys2Proof/Safety.lean ====
section
/-! DEFINITION. What a good state and a good run are, in the terms the statements use: the invariants of
40_deframer.md R115 and 10_state.md, the record of a run (R117, R204), and the fairness of the draw (R150). -/

namespace Sys2Proof.Safety

open Sys2Proof.Machine

/-- The recognizer and the held frame: R115, with TLEN as R27 says. -/
structure DfrInv (s : State) : Prop where
  /-- TLEN holds 60 and no other value (R27). -/
  tlen : s.tlen = 60
  /-- ST ∈ {S1, S2, COL}. -/
  st : s.st = stS1 ∨ s.st = stS2 ∨ s.st = stCol
  /-- ST = S1 implies IDX = 0. -/
  seek1 : s.st = stS1 → s.idx = 0
  /-- ST = S2 implies IDX = 1 and BUF[0] = 0x55. -/
  seek2 : s.st = stS2 → s.idx = 1 ∧ s.buf[0] = hdr0
  /-- ST = COL implies 2 ≤ IDX ≤ 59, BUF[0] = 0x55 and BUF[1] = 0xAA. -/
  collect : s.st = stCol →
    2 ≤ s.idx.toNat ∧ s.idx.toNat ≤ 59 ∧ s.buf[0] = hdr0 ∧ s.buf[1] = hdr1
  /-- OV = 1 implies OB[0] = 0x55 and OB[1] = 0xAA. -/
  held : s.ov = true → s.ob[0] = hdr0 ∧ s.ob[1] = hdr1

/-- The projector: "PV is 0 in IDLE" (R34), the accepted frame passed the check (R151), and the error
flags agree (R37, R38, R39). -/
structure PrjInv (s : State) : Prop where
  pvIdle : s.pst = .idle → s.pv = false
  header : s.pst = .run → s.pf[0] = hdr0 ∧ s.pf[1] = hdr1
  pulse : s.errp = true → s.errs = true
  cause : s.errs = true ↔ s.errc ≠ 0

/-- A state that the rules allow. -/
structure Inv (s : State) : Prop where
  dfr : DfrInv s
  prj : PrjInv s

/-- The composed MLFSP has no error flag set (R203). -/
def ErrorFree (s : State) : Prop := s.errp = false ∧ s.errs = false ∧ s.errc = 0

/-- The points of the frame in PF that are still to be taken: POINT(PF, K) to POINT(PF, 15) in RUN. -/
def pendingPoints (s : State) : List PointRecord :=
  match s.pst with
  | .idle => []
  | .run => (framePoints s.build.params s.pf).drop s.k.toNat

/-- The held frame, if any. -/
def heldFrames (s : State) : List Frame := if s.ov then [s.ob] else []

/-- The record of the run since the last reset edge agrees with the transaction level: the recognizer and
the completed frames are those of R117 for the accepted bytes, over some contents of BUF at reset; each
completed frame was handed off or is held (R70 (b)); and the records taken, with those still to come, are
the 16 points of each admitted frame in order (R70 (c), (d), R156). -/
structure RecordInv (s : State) : Prop where
  frames : ∃ buf : Frame,
    dfrRun (resetDfrRegs buf) s.trace.accepted = (dfrRegs s, s.trace.completed)
  handOff : s.trace.completed = s.trace.handed ++ heldFrames s
  points : s.trace.points ++ pendingPoints s =
    s.trace.admitted.flatMap (framePoints s.build.params)

/-- In the composed MLFSP the frames PRJ admitted are those DFR handed off (R200, R203). -/
def ComposedRecord (s : State) : Prop :=
  s.wiring = .composed → s.trace.admitted = s.trace.handed

/-- The DFR registers of two states are equal. -/
def SameDfr (s t : State) : Prop :=
  t.st = s.st ∧ t.idx = s.idx ∧ t.tlen = s.tlen ∧ t.buf = s.buf ∧ t.ob = s.ob ∧ t.ov = s.ov ∧
    t.done = s.done

/-- The PRJ registers of two states are equal. -/
def SamePrj (s t : State) : Prop :=
  t.pst = s.pst ∧ t.k = s.k ∧ t.pv = s.pv ∧ t.pf = s.pf ∧ t.errp = s.errp ∧ t.errs = s.errs ∧
    t.errc = s.errc

/-- What no operation writes: the build, the arrangement, the inputs and the edge count. -/
def SameSurroundings (s t : State) : Prop :=
  t.build = s.build ∧ t.wiring = s.wiring ∧ t.env = s.env ∧ t.tick = s.tick

/-- The held frame and its flag are equal. -/
def SameHeld (s t : State) : Prop := t.ob = s.ob ∧ t.ov = s.ov

/-- Two frames agree in every byte but that at index i. -/
def AgreeExcept (i : Nat) (f g : Frame) : Prop :=
  ∀ (j : Nat) (h : j < 60), j ≠ i → entry g j h = entry f j h

/-- The step of a state is not refused for its parameter setting: none is made, or none that changes a
parameter (R73). -/
def KeepsParams (s : State) : Prop := admitParams s = .ok s.build

/-- A cycle in the reference manner: no reset, no new parameter (R93). -/
def plainCycle (p : Pins) : Prop := p.rst = false ∧ p.params = none

/-- The draw is 1 within the first n of these cycles (the weak fairness of R150). -/
def drawWithin (n : Nat) (ps : List Pins) : Prop := ∃ p ∈ ps.take n, p.draw = true

end Sys2Proof.Safety
end

