-- ==== Sys2Proof/Certificates/Slice0/Obligations.lean ====
section
/-! DEFINITION. The statements for the provers. Each docstring names the rules of spec/ it rests on, or the
log entry where a clause is the model's own choice. -/

open Sys2Proof Sys2Proof.Machine Sys2Proof.Safety

/-! ## Encoding -/

/-- 30_encoding.md R84 to R89: the decoder reads back the key the encoder writes, for every well-formed
operation and every value of its operands. -/
def Obligations.DecodeInvertsEncode : Prop :=
  ∀ i : Instr, i.wf = true → decode (encode i) = .ok i

/-- 30_encoding.md R84 to R89: a key that decodes is the encoding of what it decodes to, and that
operation is well-formed; so no two keys of a format are read as one operation. -/
def Obligations.EncodeInvertsDecode : Prop :=
  ∀ (key : Key) (i : Instr), decode key = .ok i → encode i = key ∧ i.wf = true

/-- 30_encoding.md R85: the rows, the operation of every key by its condition, and that it is the one of
the first row the key hits, so that the map is total. -/
def Obligations.DfrMapIsTheTable : Prop :=
  (dfrTable.map fun r => (r.1, r.2.pat, r.2.mask)) =
      [("DFR_HDR1_MATCH", 0x0055, 0xC0FF), ("DFR_HDR1_SKIP", 0x0000, 0xC000),
       ("DFR_HDR2_MATCH", 0x40AA, 0xC0FF), ("DFR_HDR2_FAIL_RESYNC", 0x4055, 0xC0FF),
       ("DFR_HDR2_FAIL_SKIP", 0x4000, 0xC000), ("DFR_COL_LAST", 0xBB00, 0xFF00),
       ("DFR_COL_STORE", 0x8000, 0xC000), ("DFR_RSV_ST3", 0xC000, 0xC000)] ∧
    (∀ (st : BitVec 2) (idx : BitVec 6) (b : Byte),
      decode (.dfr (dfrKeyOf st idx b)) = .ok
        (if st = stS1 then (if b = 0x55 then .dfrHdr1Match idx else .dfrHdr1Skip idx b)
         else if st = stS2 then
           (if b = 0xAA then .dfrHdr2Match idx
            else if b = 0x55 then .dfrHdr2FailResync idx
            else .dfrHdr2FailSkip idx b)
         else if st = stCol then (if idx = 59 then .dfrColLast b else .dfrColStore idx b)
         else .dfrRsvSt3 idx b)) ∧
    ∀ w : BitVec 16, ∃ i, decode (.dfr w) = .ok i ∧ tableMnemonic (.dfr w) = some i.mnemonic

/-- 30_encoding.md R87, R88, R89: the operation of every key of the other four formats by its condition,
and that the decoder follows the first row the key hits and refuses a key that hits none. -/
def Obligations.OtherMapsAreTheTable : Prop :=
  (∀ (len : BitVec 7) (b1 b0 : Byte),
      decode (.pfk (pfkKeyOf len b1 b0)) = .ok
        (if len = 60 ∧ b1 = 0xAA ∧ b0 = 0x55 then .prjAccept else .prjMalformed len b1 b0)) ∧
    (∀ (pv ready : Bool) (k : BitVec 4),
      decode (.ptk (ptkKeyOf pv ready k)) = .ok
        (if pv = true ∧ ready = true then (if k = 15 then .prjPtLast else .prjPtNext k)
         else .prjPtWait pv ready k)) ∧
    (∀ rst sclr : Bool,
      decode (.ctl (pairKeyOf rst sclr)) =
        (if rst = true then .ok (.reset sclr)
         else if sclr = true then .ok .dfrSclr else .error .noOperation)) ∧
    (∀ ov ready : Bool,
      decode (.fox (pairKeyOf ov ready)) =
        (if ov = true ∧ ready = true then .ok .dfrFoTake else .error .noOperation)) ∧
    ∀ key : Key, tableMnemonic key = (decodeOk key).map Instr.mnemonic

/-- Single keys of 95_test_vectors.md V-DFR-S, V-PRJ-1 and V-PRJ-11, written out from 30_encoding.md, and
the operations that file names for them. -/
def Obligations.SampleKeysDecode : Prop :=
  decode (.dfr 0x41AA) = .ok (.dfrHdr2Match 1) ∧ decode (.dfr 0x41AB) = .ok (.dfrHdr2FailSkip 1 0xAB) ∧
    decode (.dfr 0xBA00) = .ok (.dfrColStore 58 0) ∧ decode (.dfr 0xBB07) = .ok (.dfrColLast 7) ∧
    decode (.dfr 0xC512) = .ok (.dfrRsvSt3 5 0x12) ∧ decode (.pfk 0x3CAA55) = .ok .prjAccept ∧
    decode (.pfk 0x3BAA55) = .ok (.prjMalformed 59 0xAA 0x55) ∧
    decode (.ptk 0x33) = .ok (.prjPtNext 3) ∧ decode (.ptk 0x2F) = .ok (.prjPtWait true false 15)

/-! ## The step and its operations -/

/-- 43_top.md R200, 30_encoding.md R84 to R89: where an edge forms keys of which one decodes, to i, the step
is exec of i on the state with its pulses cleared, and then the next cycle begins; a fault of i is the
step's. -/
def Obligations.StepRunsDecodedOperation : Prop :=
  ∀ (s t : State) (b : Build) (i : Instr), admitParams s = .ok b →
    (formedKeys s).filterMap decodeOk = [i] →
    (exec i (beginEdge s) = .next t → step s = .next (endEdge b t)) ∧
      ∀ e, exec i (beginEdge s) = .fault e → step s = .fault e

/-- The model's own (log 12): after placeKey, the next edge runs the operation of that key and no other. -/
def Obligations.PlacedKeyRunsAlone : Prop :=
  ∀ (s : State) (key : Key) (i : Instr), decode key = .ok i →
    (formedKeys (placeKey key s)).filterMap decodeOk = [i] ∧
      admitParams (placeKey key s) = .ok s.build

/-- 40_deframer.md R101. -/
def Obligations.Hdr1MatchStartsFrame : Prop :=
  ∀ (idx : BitVec 6) (s : State),
    decode (.dfr (dfrKeyOf stS1 idx 0x55)) = .ok (.dfrHdr1Match idx) ∧
    ∃ t, exec (.dfrHdr1Match idx) s = .next t ∧
    t.st = stS2 ∧ t.idx = 1 ∧ t.tlen = s.tlen ∧ t.done = false ∧
    entry t.buf 0 (by decide) = 0x55 ∧ AgreeExcept 0 s.buf t.buf ∧
    SameHeld s t ∧ SamePrj s t ∧ SameSurroundings s t ∧
    t.trace = { s.trace with accepted := s.trace.accepted ++ [.byte 0x55] }

/-- 40_deframer.md R102. -/
def Obligations.Hdr1SkipKeepsSeeking : Prop :=
  ∀ (idx : BitVec 6) (b : Byte) (s : State),
    (b ≠ 0x55 → decode (.dfr (dfrKeyOf stS1 idx b)) = .ok (.dfrHdr1Skip idx b)) ∧
    ∃ t, exec (.dfrHdr1Skip idx b) s = .next t ∧
    t.st = s.st ∧ t.idx = 0 ∧ t.tlen = s.tlen ∧ t.buf = s.buf ∧ t.done = false ∧
    SameHeld s t ∧ SamePrj s t ∧ SameSurroundings s t ∧
    t.trace = { s.trace with accepted := s.trace.accepted ++ [.byte b] }

/-- 40_deframer.md R103. The store needs an index of the array (20_memory.md R60). -/
def Obligations.Hdr2MatchStartsCollecting : Prop :=
  ∀ (idx : BitVec 6) (s : State), s.idx.toNat < 60 →
    decode (.dfr (dfrKeyOf stS2 idx 0xAA)) = .ok (.dfrHdr2Match idx) ∧
    ∃ t, exec (.dfrHdr2Match idx) s = .next t ∧
    t.st = stCol ∧ t.idx.toNat = s.idx.toNat + 1 ∧ t.tlen = 60 ∧ t.done = false ∧
    (∀ h : s.idx.toNat < 60, entry t.buf s.idx.toNat h = 0xAA) ∧ AgreeExcept s.idx.toNat s.buf t.buf ∧
    SameHeld s t ∧ SamePrj s t ∧ SameSurroundings s t ∧
    t.trace = { s.trace with accepted := s.trace.accepted ++ [.byte 0xAA] }

/-- 40_deframer.md R104: the byte that fails the second-header check is the first byte of a new frame. -/
def Obligations.Hdr2FailResyncRestartsFrame : Prop :=
  ∀ (idx : BitVec 6) (s : State),
    decode (.dfr (dfrKeyOf stS2 idx 0x55)) = .ok (.dfrHdr2FailResync idx) ∧
    ∃ t, exec (.dfrHdr2FailResync idx) s = .next t ∧
    t.st = stS2 ∧ t.idx = 1 ∧ t.tlen = s.tlen ∧ t.done = false ∧
    entry t.buf 0 (by decide) = 0x55 ∧ AgreeExcept 0 s.buf t.buf ∧
    SameHeld s t ∧ SamePrj s t ∧ SameSurroundings s t ∧
    t.trace = { s.trace with accepted := s.trace.accepted ++ [.byte 0x55] }

/-- 40_deframer.md R105. -/
def Obligations.Hdr2FailSkipReturnsToSeeking : Prop :=
  ∀ (idx : BitVec 6) (b : Byte) (s : State),
    (b ≠ 0xAA → b ≠ 0x55 →
      decode (.dfr (dfrKeyOf stS2 idx b)) = .ok (.dfrHdr2FailSkip idx b)) ∧
    ∃ t, exec (.dfrHdr2FailSkip idx b) s = .next t ∧
    t.st = stS1 ∧ t.idx = 0 ∧ t.tlen = s.tlen ∧ t.buf = s.buf ∧ t.done = false ∧
    SameHeld s t ∧ SamePrj s t ∧ SameSurroundings s t ∧
    t.trace = { s.trace with accepted := s.trace.accepted ++ [.byte b] }

/-- 40_deframer.md R106: below the target length the byte is stored and the index advances; at or past it
nothing is stored. -/
def Obligations.ColStoreStoresBelowTarget : Prop :=
  ∀ (idx : BitVec 6) (b : Byte) (s : State),
    (s.idx.toNat < 60 ∨ s.tlen.toNat ≤ s.idx.toNat) →
    (idx ≠ 59 → decode (.dfr (dfrKeyOf stCol idx b)) = .ok (.dfrColStore idx b)) ∧
    ∃ t, exec (.dfrColStore idx b) s = .next t ∧
    t.st = s.st ∧ t.tlen = s.tlen ∧ t.done = false ∧
    (if s.idx.toNat < s.tlen.toNat then
       t.idx.toNat = s.idx.toNat + 1 ∧ (∀ h : s.idx.toNat < 60, entry t.buf s.idx.toNat h = b) ∧
         AgreeExcept s.idx.toNat s.buf t.buf
     else t.idx = s.idx ∧ t.buf = s.buf) ∧
    SameHeld s t ∧ SamePrj s t ∧ SameSurroundings s t ∧
    t.trace = { s.trace with accepted := s.trace.accepted ++ [.byte b] }

/-- The model's own (log 9): a store to an index that addresses nothing (20_memory.md R60) stops by name. -/
def Obligations.StoreOutsideArrayStops : Prop :=
  ∀ (idx : BitVec 6) (b : Byte) (s : State), 60 ≤ s.idx.toNat →
    exec (.dfrHdr2Match idx) s = .fault .noSuchEntry ∧
      (s.idx.toNat < s.tlen.toNat → exec (.dfrColStore idx b) s = .fault .noSuchEntry)

/-- 40_deframer.md R107, 20_memory.md R67: the 60th byte is stored, all 60 bytes go to OB at the same edge,
and DFR is back in S1. -/
def Obligations.ColLastCompletesFrame : Prop :=
  ∀ (b : Byte) (s : State),
    decode (.dfr (dfrKeyOf stCol 59 b)) = .ok (.dfrColLast b) ∧
    ∃ t, exec (.dfrColLast b) s = .next t ∧
    t.st = stS1 ∧ t.idx = 0 ∧ t.tlen = s.tlen ∧ t.done = true ∧ t.ov = true ∧
    entry t.buf 59 (by decide) = b ∧ AgreeExcept 59 s.buf t.buf ∧ t.ob = t.buf ∧
    SamePrj s t ∧ SameSurroundings s t ∧
    t.trace = { s.trace with
      accepted := s.trace.accepted ++ [.byte b], completed := s.trace.completed ++ [t.buf] }

/-- 40_deframer.md R108: the reserved state takes the byte as S1 does. -/
def Obligations.RsvSt3ActsAsSeekHeader1 : Prop :=
  ∀ (idx : BitVec 6) (b : Byte) (s : State),
    decode (.dfr (dfrKeyOf stRsv idx b)) = .ok (.dfrRsvSt3 idx b) ∧
    ∃ t, exec (.dfrRsvSt3 idx b) s = .next t ∧
    t.tlen = s.tlen ∧ t.done = false ∧
    (if b = 0x55 then
       t.st = stS2 ∧ t.idx = 1 ∧ entry t.buf 0 (by decide) = 0x55 ∧ AgreeExcept 0 s.buf t.buf
     else t.st = stS1 ∧ t.idx = 0 ∧ t.buf = s.buf) ∧
    SameHeld s t ∧ SamePrj s t ∧ SameSurroundings s t ∧
    t.trace = { s.trace with accepted := s.trace.accepted ++ [.byte b] }

/-- 40_deframer.md R109: the partial frame is discarded and a completed one is kept. -/
def Obligations.SclrDiscardsPartialFrame : Prop :=
  ∀ s : State, decode (.ctl (pairKeyOf false true)) = .ok .dfrSclr ∧ ∃ t, exec .dfrSclr s = .next t ∧
    t.st = stS1 ∧ t.idx = 0 ∧ t.tlen = s.tlen ∧ t.buf = s.buf ∧ t.done = false ∧
    SameHeld s t ∧ SamePrj s t ∧ SameSurroundings s t ∧
    t.trace = { s.trace with accepted := s.trace.accepted ++ [.sclr] }

/-- 40_deframer.md R113: OV falls and the frame in OB counts as taken; nothing else changes. -/
def Obligations.FoTakeHandsOffHeldFrame : Prop :=
  ∀ s : State, decode (.fox (pairKeyOf true true)) = .ok .dfrFoTake ∧ ∃ t, exec .dfrFoTake s = .next t ∧
    t.ov = false ∧ t.st = s.st ∧ t.idx = s.idx ∧ t.tlen = s.tlen ∧ t.buf = s.buf ∧ t.ob = s.ob ∧
    t.done = s.done ∧ SamePrj s t ∧ SameSurroundings s t ∧
    t.trace = { s.trace with handed := s.trace.handed ++ [s.ob] }

/-- 41_projector.md R151: the offered frame is captured whole and the point sequence starts at 0. -/
def Obligations.AcceptCapturesFrame : Prop :=
  ∀ s : State, decode (.pfk (pfkKeyOf 60 0xAA 0x55)) = .ok .prjAccept ∧ ∃ t, exec .prjAccept s = .next t ∧
    t.pst = .run ∧ t.k = 0 ∧ t.pv = draw s ∧ t.errp = false ∧ t.errs = s.errs ∧ t.errc = s.errc ∧
    (∀ (j : Nat) (h : j < 60) (m : Nat), m < 8 →
      (entry t.pf j h).getLsbD m = (fiData s).getLsbD (8 * j + m)) ∧
    SameDfr s t ∧ SameSurroundings s t ∧
    t.trace = { s.trace with admitted := s.trace.admitted ++ [t.pf] }

/-- 41_projector.md R142, 60_exceptions.md R211, R212, R218, R219: taking MalformedFrame sets the pulse and
the sticky flag, ORs the cause in, and changes nothing else. -/
def Obligations.MalformedRecordsCauseOnly : Prop :=
  ∀ (len : BitVec 7) (b1 b0 : Byte) (s : State),
    (checkCause len b0 b1 ≠ 0 →
      decode (.pfk (pfkKeyOf len b1 b0)) = .ok (.prjMalformed len b1 b0)) ∧
    ∃ t, exec (.prjMalformed len b1 b0) s = .next t ∧
    t.errp = true ∧ t.errs = true ∧
    t.errc.getLsbD 0 = (s.errc.getLsbD 0 || len != 60) ∧
    t.errc.getLsbD 1 = (s.errc.getLsbD 1 || (len.toNat < 2 || b0 != 0x55 || b1 != 0xAA)) ∧
    t.pst = s.pst ∧ t.k = s.k ∧ t.pv = s.pv ∧ t.pf = s.pf ∧
    SameDfr s t ∧ SameSurroundings s t ∧ t.trace = s.trace

/-- 41_projector.md R152: the consumer takes POINT(PF, K), K advances, PV is the draw. -/
def Obligations.PtNextTransfersPoint : Prop :=
  ∀ (k : BitVec 4) (s : State),
    (k ≠ 15 → decode (.ptk (ptkKeyOf true true k)) = .ok (.prjPtNext k)) ∧
    ∃ t, exec (.prjPtNext k) s = .next t ∧
    t.k = s.k + 1 ∧ t.pv = draw s ∧ t.pst = s.pst ∧ t.pf = s.pf ∧
    t.errp = s.errp ∧ t.errs = s.errs ∧ t.errc = s.errc ∧
    SameDfr s t ∧ SameSurroundings s t ∧
    t.trace = { s.trace with points := s.trace.points ++ [point s.build.params s.pf s.k] }

/-- 41_projector.md R153: the consumer takes POINT(PF, 15), whose last flag is 1, and PRJ is idle. -/
def Obligations.PtLastEndsFrame : Prop :=
  ∀ s : State, decode (.ptk (ptkKeyOf true true 15)) = .ok .prjPtLast ∧ ∃ t, exec .prjPtLast s = .next t ∧
    t.pst = .idle ∧ t.k = 0 ∧ t.pv = false ∧ t.pf = s.pf ∧
    t.errp = s.errp ∧ t.errs = s.errs ∧ t.errc = s.errc ∧
    (point s.build.params s.pf 15).last = true ∧
    SameDfr s t ∧ SameSurroundings s t ∧
    t.trace = { s.trace with points := s.trace.points ++ [point s.build.params s.pf 15] }

/-- 41_projector.md R154: an offered point stays offered, and else PV is the draw. -/
def Obligations.PtWaitHoldsPoint : Prop :=
  ∀ (pv ready : Bool) (k : BitVec 4) (s : State),
    (¬(pv = true ∧ ready = true) →
      decode (.ptk (ptkKeyOf pv ready k)) = .ok (.prjPtWait pv ready k)) ∧
    ∃ t, exec (.prjPtWait pv ready k) s = .next t ∧
    (s.pv = true → t.pv = true) ∧ (s.pv = false → t.pv = draw s) ∧
    t.k = s.k ∧ t.pst = s.pst ∧ t.pf = s.pf ∧ t.errp = s.errp ∧ t.errs = s.errs ∧ t.errc = s.errc ∧
    SameDfr s t ∧ SameSurroundings s t ∧ t.trace = s.trace

/-- 70_reset_and_hazards.md R230 to R232: RESET puts every register of 10_state.md R44 to its value. The
empty record is the model's own (log 5). -/
def Obligations.ResetClearsRegisters : Prop :=
  ∀ (sclr : Bool) (s : State),
    decode (.ctl (pairKeyOf true sclr)) = .ok (.reset sclr) ∧
    ∃ t, exec (.reset sclr) s = .next t ∧
    t.st = stS1 ∧ t.idx = 0 ∧ t.tlen = 60 ∧ t.ov = false ∧ t.done = false ∧
    t.pst = .idle ∧ t.k = 0 ∧ t.pv = false ∧ t.errp = false ∧ t.errs = false ∧ t.errc = 0 ∧
    SameSurroundings s t ∧ t.trace = Trace.empty

/-- 10_state.md R44: after an edge with rst = 1, whatever the other inputs, every register holds its reset
value (BUF, OB and PF are unspecified and unstated). -/
def Obligations.ResetEdgeGivesResetValues : Prop :=
  ∀ (s : State) (b : Build), (pins s).rst = true → admitParams s = .ok b → ∃ t, step s = .next t ∧
    t.st = 0b00 ∧ t.idx = 0 ∧ t.tlen = 60 ∧ t.ov = false ∧ t.done = false ∧
    t.pst = .idle ∧ t.k = 0 ∧ t.pv = false ∧ t.errp = false ∧ t.errs = false ∧ t.errc = 0b00

/-- 10_state.md R44: the values the spec gives for reset, in the model's state after reset. -/
def Obligations.ResetStateHoldsStatedValues : Prop :=
  State.reset.st = 0b00 ∧ State.reset.idx = 0 ∧ State.reset.tlen = 60 ∧ State.reset.ov = false ∧
    State.reset.done = false ∧ State.reset.pst = .idle ∧ State.reset.k = 0 ∧
    State.reset.pv = false ∧ State.reset.errp = false ∧ State.reset.errs = false ∧
    State.reset.errc = 0b00

/-- 10_state.md R27: TLEN is written by DFR_HDR2_MATCH and by reset, with 60, and by nothing else. -/
def Obligations.TargetLengthIsOnlySixty : Prop :=
  ∀ (i : Instr) (s t : State), exec i s = .next t →
    (i.mnemonic = "DFR_HDR2_MATCH" ∨ i.mnemonic = "RESET" → t.tlen = 60) ∧
      (i.mnemonic ≠ "DFR_HDR2_MATCH" ∧ i.mnemonic ≠ "RESET" → t.tlen = s.tlen)

/-- 40_deframer.md R110, in the states R115 allows: the operation that the key {ST, IDX, b} selects does what
DFR_STEP does, and a completed frame is in OB. -/
def Obligations.SelectedOperationIsDfrStep : Prop :=
  ∀ (s : State) (b : Byte) (i : Instr), DfrInv s →
    decode (.dfr (dfrKeyOf s.st s.idx b)) = .ok i →
    ∃ t, exec i s = .next t ∧ (dfrRegs t, t.done) = dfrStep (dfrRegs s) b ∧
      (t.done = true → t.ov = true ∧ t.ob = t.buf) ∧ (t.done = false → SameHeld s t) ∧ SamePrj s t

/-! ## The frame check and the arithmetic -/

/-- 41_projector.md R141: the two cause bits, and when the cause is 0. -/
def Obligations.CheckCauseBits : Prop :=
  ∀ (len : BitVec 7) (f0 f1 : Byte),
    ((checkCause len f0 f1).getLsbD 0 = true ↔ len ≠ 60) ∧
      ((checkCause len f0 f1).getLsbD 1 = true ↔ len.toNat < 2 ∨ f0 ≠ 0x55 ∨ f1 ≠ 0xAA) ∧
      (checkCause len f0 f1 ≠ 0 ↔ ¬(len = 60 ∧ f0 = 0x55 ∧ f1 = 0xAA))

/-- 20_memory.md R63, 30_encoding.md R81: every 16-bit field is little-endian at its offset. -/
def Obligations.FieldsAreLittleEndian : Prop :=
  (∀ (f : Frame) (i : Nat) (h : i + 1 < 60),
      (le16 f i h).toNat = (entry f i (by omega)).toNat + 256 * (entry f (i + 1) h).toNat) ∧
    (∀ f : Frame, (firstRaw f).toNat = f[6].toNat + 256 * f[7].toNat ∧
      (lastRaw f).toNat = f[56].toNat + 256 * f[57].toNat) ∧
    ∀ (f : Frame) (k : BitVec 4) (h : 8 + 3 * k.toNat + 1 < 60),
      (sampleWord f k).toNat = (entry f (8 + 3 * k.toNat) (by omega)).toNat +
        256 * (entry f (8 + 3 * k.toNat + 1) h).toNat

/-- 20_memory.md R64: byte j of the held frame stands in bits [8j+7:8j] of fo_data and mon_data, and
unpacking such a bus gives the frame back. -/
def Obligations.FrameBusCarriesBytesInOrder : Prop :=
  (∀ (s : State) (j : Nat) (h : j < 60) (m : Nat), s.ov = true → m < 8 →
      (outputs s).foData.getLsbD (8 * j + m) = (entry s.ob j h).getLsbD m ∧
        (outputs s).monData.getLsbD (8 * j + m) = (entry s.ob j h).getLsbD m) ∧
    (∀ (w : BitVec 480) (j : Nat) (h : j < 60) (m : Nat), m < 8 →
      (entry (unpack w) j h).getLsbD m = w.getLsbD (8 * j + m)) ∧
    (∀ f : Frame, unpack (pack f) = f) ∧ ∀ w : BitVec 480, pack (unpack w) = w

/-- 41_projector.md R143: the decoded angles are raw − 40960 exactly, as stored at 17 bits, and their
range. -/
def Obligations.DecodedAnglesAreExact : Prop :=
  ∀ (p : Params) (f : Frame) (k : BitVec 4),
    (point p f k).firstAng.toInt = (le16 f 6 (by decide)).toNat - 40960 ∧
      (point p f k).lastAng.toInt = (le16 f 56 (by decide)).toNat - 40960 ∧
      -40960 ≤ angle (firstRaw f) ∧ angle (firstRaw f) ≤ 24575 ∧
      -40960 ≤ angle (lastRaw f) ∧ angle (lastRaw f) ≤ 24575

/-- 41_projector.md R144: 360 degrees is added exactly when the last angle is below the first, which the
unsigned compare of the raw fields says as well. -/
def Obligations.WrapAddsOneTurn : Prop :=
  ∀ first last : BitVec 16,
    lastAdjusted (angle first) (angle last) =
        (if angle last < angle first then angle last + 23040 else angle last) ∧
      (angle last < angle first ↔ last < first) ∧
      -(2 : Int) ^ 17 ≤ lastAdjusted (angle first) (angle last) ∧
      lastAdjusted (angle first) (angle last) < 2 ^ 17

/-- 41_projector.md R146: the span, its range, and when it is negative. -/
def Obligations.SpanRangeAndSign : Prop :=
  ∀ f : Frame,
    span f = lastAdjusted (angle (firstRaw f)) (angle (lastRaw f)) - angle (firstRaw f) ∧
    -42495 ≤ span f ∧ span f ≤ 65535 ∧
    (span f < 0 ↔ angle (lastRaw f) < angle (firstRaw f) ∧
      angle (firstRaw f) - angle (lastRaw f) > 23040)

/-- 41_projector.md R147: the interpolated angle is exact, is not reduced, and fits its 22 bits. -/
def Obligations.InterpolatedAngleIsExact : Prop :=
  ∀ (p : Params) (f : Frame) (k : BitVec 4),
    (point p f k).theta.toInt = 16 * angle (firstRaw f) + k.toNat * span f ∧
      -1638385 ≤ theta f k ∧ theta f k ≤ 1638385

/-- 41_projector.md R148: the distance is the low DIST_MASK_BITS bits of the sample word. -/
def Obligations.DistanceIsMasked : Prop :=
  ∀ (b : Build) (f : Frame) (k : BitVec 4),
    (point b.params f k).dist.toNat = (sampleWord f k).toNat % 2 ^ b.params.distMaskBits ∧
      (b.params.distMaskBits = 12 → (point b.params f k).dist.toNat ≤ 4095) ∧
      (b.params.distMaskBits = 12 ∨ b.params.distMaskBits = 14)

/-- 42_polar_cartesian.md R183: exact values at multiples of 90 degrees, and the period of one turn. -/
def Obligations.SincosAxesAndPeriod : Prop :=
  sincos 0 = (0, 65536) ∧ sincos 92160 = (65536, 0) ∧ sincos 184320 = (0, -65536) ∧
    sincos 276480 = (-65536, 0) ∧ sincos 368640 = (0, 65536) ∧ sincos (-92160) = (-65536, 0) ∧
    ∀ theta n : Int, sincos (theta + 368640 * n) = sincos theta


/-- 42_polar_cartesian.md R176: rnd is the nearest integer to P / (SCALE_DIV × 2^16), ties going up. -/
def Obligations.RoundingIsNearestTiesUp : Prop :=
  (∀ (b : Build) (product : Int),
      2 * (rnd b.params product * (b.params.scaleDiv.toNat * 65536)) ≤
          2 * product + b.params.scaleDiv.toNat * 65536 ∧
        2 * product + b.params.scaleDiv.toNat * 65536 <
          2 * ((rnd b.params product + 1) * (b.params.scaleDiv.toNat * 65536))) ∧
    rnd Params.default 0 = 0 ∧ rnd Params.default 32768 = 1 ∧ rnd Params.default (-32768) = 0

/-- 42_polar_cartesian.md R177, R178, R180: the stored coordinates are the exact integers, whatever the
frame and the build: no value wraps. -/
def Obligations.CoordinatesNeverOverflow : Prop :=
  ∀ (b : Build) (f : Frame) (k : BitVec 4),
    (point b.params f k).x.toInt = b.params.originX.toInt +
        rnd b.params ((sincos (theta f k)).1 * (dist b.params f k).toNat) ∧
      (point b.params f k).y.toInt = b.params.originY.toInt -
        rnd b.params ((sincos (theta f k)).2 * (dist b.params f k).toNat) ∧
      -49151 ≤ (point b.params f k).x.toInt ∧ (point b.params f k).x.toInt ≤ 49150 ∧
      -49151 ≤ (point b.params f k).y.toInt ∧ (point b.params f k).y.toInt ≤ 49150

/-- 41_projector.md R157: all-zero distances put every point at the origin, whatever the angles. -/
def Obligations.ZeroDistancesGiveOrigin : Prop :=
  ∀ (b : Build) (f : Frame), (∀ k : BitVec 4, dist b.params f k = 0) →
    ∀ r ∈ framePoints b.params f,
      r.dist = 0 ∧ r.x.toInt = b.params.originX.toInt ∧ r.y.toInt = b.params.originY.toInt

/-- 41_projector.md R158: from 350 to 10 degrees the span is 20 degrees. -/
def Obligations.SpanAcrossZeroIsTwentyDegrees : Prop :=
  ∀ f : Frame, firstRaw f = 63360 → lastRaw f = 41600 →
    angle (firstRaw f) = 22400 ∧ angle (lastRaw f) = 640 ∧
      lastAdjusted (angle (firstRaw f)) (angle (lastRaw f)) = 23680 ∧ span f = 1280 ∧
      (∀ k : BitVec 4, theta f k = 358400 + 1280 * k.toNat) ∧ theta f 15 = 377600

/-- 41_projector.md R159: a frame built by a FRAME line (30_encoding.md R94) decodes to the angles and
distances it was built from. -/
def Obligations.FrameLineRoundTrip : Prop :=
  ∀ (b : Build) (first last : BitVec 16) (d : Vector (BitVec 16) 16) (s : Vector Byte 16)
    (x : Vector Byte 6) (k : BitVec 4),
    (point b.params (frameLine first last d s x) k).firstRaw = first ∧
      (point b.params (frameLine first last d s x) k).lastRaw = last ∧
      theta (frameLine first last d s x) 0 = 16 * angle first ∧
      theta (frameLine first last d s x) k = 16 * angle first +
        k.toNat * (lastAdjusted (angle first) (angle last) - angle first) ∧
      sampleWord (frameLine first last d s x) k = d[k.toNat] ∧
      (point b.params (frameLine first last d s x) k).dist.toNat =
        d[k.toNat].toNat % 2 ^ b.params.distMaskBits ∧
      (d[k.toNat].toNat < 2 ^ b.params.distMaskBits →
        (point b.params (frameLine first last d s x) k).dist.toNat = d[k.toNat].toNat) ∧
      (frameLine first last d s x)[0] = 0x55 ∧ (frameLine first last d s x)[1] = 0xAA

/-- 30_encoding.md R91: no point field depends on bytes 2 to 5, 58, 59, a strength byte or a sample bit
above the mask. -/
def Obligations.UninterpretedBytesAreIgnored : Prop :=
  ∀ (b : Build) (f g : Frame), f[6] = g[6] → f[7] = g[7] → f[56] = g[56] → f[57] = g[57] →
    (∀ k : BitVec 4, (sampleWord f k).toNat % 2 ^ b.params.distMaskBits =
      (sampleWord g k).toNat % 2 ^ b.params.distMaskBits) →
    framePoints b.params f = framePoints b.params g

/-! ## The machine -/

/-- 40_deframer.md R111, 41_projector.md R155, 43_top.md R200: in the states the rules allow, one step of the
model is the DFR step and the PRJ step as those rules write them, both over the registers from before the
edge. -/
def Obligations.StepIsBothCycleSteps : Prop :=
  ∀ (s t : State), Inv s → step s = .next t →
    SameDfr (dfrEdge s) t ∧ SamePrj (prjEdge s) t ∧
      t.wiring = s.wiring ∧ t.env = s.env.tail ∧ t.tick = s.tick + 1

/-- 40_deframer.md R115, 10_state.md R27, R34, R37 to R39: every step keeps the invariant. -/
def Obligations.StepKeepsInv : Prop :=
  ∀ s t : State, Inv s → step s = .next t → Inv t

/-- The invariants hold after reset (10_state.md R44). -/
def Obligations.ResetMeetsInv : Prop :=
  Inv State.reset ∧ RecordInv State.reset ∧ ComposedRecord State.reset ∧ ErrorFree State.reset

/-- No step stops in a state the rules allow, unless the host changes a parameter (R73, R237). -/
def Obligations.StepCompletesUnderInv : Prop :=
  ∀ (s : State) (b : Build), Inv s → admitParams s = .ok b → ∃ t, step s = .next t ∧ t.build = b

/-- 20_memory.md R68: an offered point stays offered with an unchanged payload until its transfer, and a
held frame stays held and unchanged until its. -/
def Obligations.OffersAreStable : Prop :=
  ∀ s t : State, Inv s → (pins s).rst = false → step s = .next t →
    (ptValid s = true → (pins s).ptReady = false →
      (outputs t).ptValid = true ∧ (outputs t).pt = (outputs s).pt) ∧
    (s.ov = true → foReady s = false →
      (outputs t).foValid = true ∧ (outputs t).foData = (outputs s).foData ∧
        (outputs t).foLen = 60)

/-- 40_deframer.md R112: frame_done is 1 in exactly the cycle after a completing byte was accepted. -/
def Obligations.FrameDoneMarksCompletion : Prop :=
  ∀ s t : State, Inv s → step s = .next t →
    ((outputs t).frameDone = true ↔
      (pins s).rst = false ∧ acc s = true ∧ (dfrStep (dfrRegs s) (pins s).inData).2 = true)

/-- 43_top.md R203: composed, every frame PRJ accepts passes the check, PRJ_MALFORMED is never selected, and
the error flags stay 0; with PRJ alone they are reachable. R201: composed, mon_valid is 1 in exactly the cycle
before the edge at which the held frame moves to PRJ, and mon_data then carries its bytes. -/
def Obligations.ComposedNeverMalformed : Prop :=
  (∀ s t : State, Inv s → s.wiring = .composed → ErrorFree s → step s = .next t →
      (accf s = true → offeredCause s = 0) ∧
        (∀ (len : BitVec 7) (b1 b0 : Byte), Instr.prjMalformed len b1 b0 ∉ selected s) ∧
        ErrorFree t) ∧
    (∀ s t : State, Inv s → s.wiring = .composed → step s = .next t →
      ((outputs s).monValid = true ↔
        s.ov = true ∧ s.pst = .idle ∧ t.pst = .run ∧ t.pf = s.ob) ∧
      ((outputs s).monValid = true ↔
        (outputs s).foValid = true ∧ (outputs s).fiReady = true) ∧
      (outputs s).monData = (outputs s).foData ∧
      ((outputs s).monValid = true → (outputs s).monData = pack s.ob)) ∧
    ∃ s t : State, Inv s ∧ s.wiring = .unitsAlone ∧ ErrorFree s ∧ step s = .next t ∧
      t.errp = true ∧ t.errs = true ∧ t.errc ≠ 0

/-- 40_deframer.md R117, 20_memory.md R70, 41_projector.md R156: every step keeps the record of the run in
agreement with the transaction level, and composed, PRJ admits exactly the frames DFR hands off. -/
def Obligations.StepKeepsRecord : Prop :=
  ∀ s t : State, Inv s → RecordInv s → ComposedRecord s → step s = .next t →
    RecordInv t ∧ ComposedRecord t

/-- 43_top.md R204: the point records transferred since reset are those of PROJECT for the frames that the
accepted bytes give, in that order, up to where the run is cut off; whatever the inputs, the build and the
unspecified reset value of BUF (40_deframer.md R116). `trace.points` and `trace.accepted` are the model's own
record of what crossed the channels since the last reset edge (log 5). -/
def Obligations.EndToEndPoints : Prop :=
  ∀ (n : Nat) (env : List Pins) (b : Build) (t : State),
    core.run n { State.reset with env := env, build := b } = .next t →
    ∃ rest : List PointRecord,
      (∀ buf : Frame,
        t.trace.points ++ rest = endToEnd t.build.params buf t.trace.accepted) ∧
        (t.pst = .idle → t.ov = false → rest = [])

/-- 40_deframer.md R120: a sequence without the byte 0x55 completes no frame and leaves DFR in S1. -/
def Obligations.NoHeaderByteNoFrame : Prop :=
  ∀ (buf : Frame) (es : List DfrEvent), .byte 0x55 ∉ es →
    (dfrRun (resetDfrRegs buf) es).2 = [] ∧ (dfrRun (resetDfrRegs buf) es).1.st = stS1

/-- 40_deframer.md R121: from S1, two frames back to back give exactly two frames, each equal to its 60
bytes, and the next byte is evaluated in S1 again. R116: a completed frame is the 60 bytes accepted last, with
no soft clear among them, and begins with the header; so no completed frame depends on what BUF held at reset
(10_state.md R44). -/
def Obligations.BackToBackFrames : Prop :=
  (∀ (buf f g : Frame), f[0] = 0x55 → f[1] = 0xAA → g[0] = 0x55 → g[1] = 0xAA →
    dfrRun (resetDfrRegs buf) ((f.toList ++ g.toList).map .byte) = (resetDfrRegs g, [f, g])) ∧
  (∀ (buf : Frame) (es : List DfrEvent) (b : Byte) (r : DfrRegs),
    (dfrStep (dfrRun (resetDfrRegs buf) es).1 b) = (r, true) →
    (∃ before : List DfrEvent, es ++ [.byte b] = before ++ r.buf.toList.map .byte) ∧
      r.buf[0] = 0x55 ∧ r.buf[1] = 0xAA) ∧
  ∀ (buf buf' : Frame) (es : List DfrEvent),
    (dfrRun (resetDfrRegs buf) es).2 = (dfrRun (resetDfrRegs buf') es).2

/-- 10_state.md R42: the hidden registers show on no port, but for in_ready through the one position in which
a byte would complete a frame. -/
def Obligations.OutputsHideRecognizer : Prop :=
  ∀ (s : State) (st : BitVec 2) (idx tlen : BitVec 6) (buf : Frame),
    completes { s with st := st, idx := idx, tlen := tlen, buf := buf } = completes s →
    outputs { s with st := st, idx := idx, tlen := tlen, buf := buf } = outputs s

/-- 40_deframer.md R100, 70_reset_and_hazards.md R238: in_ready is 1 but during rst, during sclr, and while
the 60th byte of a frame waits for a held frame that is not taken; a byte is accepted exactly where it is
offered and in_ready is 1. R119, 60_exceptions.md R213: a byte that is not accepted is not evaluated; without a
soft clear, the recognizer keeps its registers. That `trace.accepted` lists the accepted bytes is the model's
own (log 5). -/
def Obligations.UnacceptedByteIsNotEvaluated : Prop :=
  (∀ s : State, Inv s →
    ((outputs s).inReady = true ↔ (pins s).rst = false ∧ (pins s).sclr = false ∧
      ¬(s.st = stCol ∧ s.idx = 59 ∧ s.ov = true ∧ foReady s = false))) ∧
  (∀ s : State, (pins s).rst = false →
    foReady s = match s.wiring with
      | .composed => s.pst == .idle
      | .unitsAlone => (pins s).foReady) ∧
  (∀ s : State, acc s = ((pins s).inValid && (outputs s).inReady)) ∧
  (∀ s t : State, (pins s).inValid = true → (outputs s).inReady = true → step s = .next t →
    t.trace.accepted = s.trace.accepted ++ [.byte (pins s).inData]) ∧
  ∀ s t : State, (pins s).rst = false → (pins s).sclr = false →
    ¬((pins s).inValid = true ∧ (outputs s).inReady = true) → step s = .next t →
    dfrRegs t = dfrRegs s ∧ t.done = false ∧ t.ob = s.ob ∧
      t.trace.accepted = s.trace.accepted ∧ t.trace.completed = s.trace.completed

/-- 70_reset_and_hazards.md R237, 00_scope.md R9, 41_projector.md R145: a parameter change while rst = 0 is
refused, and an illegal setting is refused at reset too; SIGN and SCALE_DIV = 0 are illegal. -/
def Obligations.ParameterSettingsRefused : Prop :=
  (∀ (s : State) (p : Params), (pins s).params = some p → p ≠ s.build.params →
      ((pins s).rst = false → step s = .refused .parameterChange) ∧
        ((pins s).rst = true → legalParams p = false → step s = .refused .illegalBuild)) ∧
    ∀ p : Params, (p.wrapMode = .sign ∨ p.scaleDiv = 0 ∨ p.trig = .otherTable ∨
      (p.distMaskBits ≠ 14 ∧ p.distMaskBits ≠ 12)) → legalParams p = false

/-- 70_reset_and_hazards.md R233: the outputs in a cycle with rst = 1, and in the first cycle after it. -/
def Obligations.OutputsAroundReset : Prop :=
  ∀ s t : State, (pins s).rst = true → step s = .next t →
    ((outputs s).inReady = false ∧ (outputs s).fiReady = false ∧ (outputs s).monValid = false ∧
      (outputs s).foValid = s.ov ∧ (outputs s).frameDone = s.done ∧
      (outputs s).ptValid = (s.pst == .run && s.pv) ∧
      (outputs s).errMalformed = s.errp ∧ (outputs s).errSticky = s.errs ∧
      (outputs s).errCause = s.errc) ∧
    (outputs t).foValid = false ∧ (outputs t).frameDone = false ∧ (outputs t).ptValid = false ∧
    (outputs t).errMalformed = false ∧ (outputs t).errSticky = false ∧ (outputs t).errCause = 0 ∧
    ((pins t).rst = false → (outputs t).fiReady = true ∧
      ((pins t).sclr = false → (outputs t).inReady = true))

/-- 41_projector.md R150: under the weak fairness of the draw, a point is offered within PT_LAT_MAX edges,
for the same frame and index. That PT_LAT_MAX is a constant without a body and the fairness a hypothesis is
the model's choice (log 14). -/
def Obligations.FairDrawOffersPoint : Prop :=
  ∀ s : State, Inv s → s.pst = .run → s.pv = false → Config.ptLatMax ≤ s.env.length →
    (∀ p ∈ s.env.take Config.ptLatMax, plainCycle p) → drawWithin Config.ptLatMax s.env →
    ∃ (n : Nat) (t : State), n ≤ Config.ptLatMax ∧ core.run n s = .next t ∧
      t.pst = .run ∧ t.pv = true ∧ t.k = s.k ∧ t.pf = s.pf

/-- 41_projector.md R152, R153, R156: with an offered point, a ready consumer and a draw of 1 in every cycle,
the points from K to 15 are transferred one an edge, and PRJ is idle after the last. `trace.points` is the
model's own record of the points taken (log 5). -/
def Obligations.ReadyConsumerTakesAllPoints : Prop :=
  ∀ s : State, Inv s → s.pst = .run → s.pv = true → 16 - s.k.toNat ≤ s.env.length →
    (∀ p ∈ s.env.take (16 - s.k.toNat), plainCycle p ∧ p.ptReady = true ∧ p.draw = true) →
    ∃ t : State, core.run (16 - s.k.toNat) s = .next t ∧ t.pst = .idle ∧
      t.trace.points = s.trace.points ++ pendingPoints s
end

