-- ==== Sys2Proof/Laws/Encoding.lean ====
section
/-! SUPPORT. Which keys hit a row, in terms of the key's fields, for every row of the opcode table; and the
fields of a key that is written from fields. -/

namespace Sys2Proof.Laws

theorem append_eq_iff {n m : Nat} (a a' : BitVec n) (b b' : BitVec m) :
    a ++ b = a' ++ b' ↔ a = a' ∧ b = b' := by
  constructor
  · intro h
    constructor
    · simpa [BitVec.extractLsb'_append_eq_left] using congrArg (BitVec.extractLsb' m n) h
    · simpa [BitVec.setWidth_append] using congrArg (BitVec.setWidth m) h
  · rintro ⟨rfl, rfl⟩
    rfl

theorem and_append_eq {n m : Nat} (a a' : BitVec n) (b b' : BitVec m) :
    (a ++ b) &&& (a' ++ b') = (a &&& a') ++ (b &&& b') := by
  apply BitVec.eq_of_getLsbD_eq
  intro i _
  simp only [BitVec.getLsbD_and, BitVec.getLsbD_append]
  split <;> rfl

/-- A row whose mask and match are written field by field is hit when each field is. -/
theorem hits_three {n m k : Nat} (m1 p1 a : BitVec n) (m2 p2 b : BitVec m) (m3 p3 c : BitVec k) :
    (Row.mk (m1 ++ m2 ++ m3) (p1 ++ p2 ++ p3)).hits (a ++ b ++ c) = true ↔
      a &&& m1 = p1 ∧ b &&& m2 = p2 ∧ c &&& m3 = p3 := by
  simp only [Row.hits, and_append_eq, beq_iff_eq, append_eq_iff, and_assoc]

/-- The same for a key of two fields. -/
theorem hits_two {n m : Nat} (m1 p1 a : BitVec n) (m2 p2 b : BitVec m) :
    (Row.mk (m1 ++ m2) (p1 ++ p2)).hits (a ++ b) = true ↔ a &&& m1 = p1 ∧ b &&& m2 = p2 := by
  simp only [Row.hits, and_append_eq, beq_iff_eq, append_eq_iff]

theorem and_full {n : Nat} (a : BitVec n) : a &&& BitVec.allOnes n = a := BitVec.and_allOnes

theorem and_none {n : Nat} (a : BitVec n) : a &&& 0#n = 0#n := BitVec.and_zero

variable (st : BitVec 2) (idx : BitVec 6) (b : Byte)

theorem rowHdr1Match_hits :
    rowHdr1Match.hits (dfrKeyOf st idx b) = true ↔ st = 0 ∧ b = 0x55 := by
  exact (hits_three (BitVec.allOnes 2) 0 st (0#6) 0 idx (BitVec.allOnes 8) 0x55 b).trans
    (by simp only [and_full, and_none, BitVec.ofNat_eq_ofNat, true_and])

theorem rowHdr1Skip_hits : rowHdr1Skip.hits (dfrKeyOf st idx b) = true ↔ st = 0 := by
  exact (hits_three (BitVec.allOnes 2) 0 st (0#6) 0 idx (0#8) 0 b).trans
    (by simp only [and_full, and_none, BitVec.ofNat_eq_ofNat, and_true])

theorem rowHdr2Match_hits :
    rowHdr2Match.hits (dfrKeyOf st idx b) = true ↔ st = 1 ∧ b = 0xAA := by
  exact (hits_three (BitVec.allOnes 2) 1 st (0#6) 0 idx (BitVec.allOnes 8) 0xAA b).trans
    (by simp only [and_full, and_none, BitVec.ofNat_eq_ofNat, true_and])

theorem rowHdr2FailResync_hits :
    rowHdr2FailResync.hits (dfrKeyOf st idx b) = true ↔ st = 1 ∧ b = 0x55 := by
  exact (hits_three (BitVec.allOnes 2) 1 st (0#6) 0 idx (BitVec.allOnes 8) 0x55 b).trans
    (by simp only [and_full, and_none, BitVec.ofNat_eq_ofNat, true_and])

theorem rowHdr2FailSkip_hits : rowHdr2FailSkip.hits (dfrKeyOf st idx b) = true ↔ st = 1 := by
  exact (hits_three (BitVec.allOnes 2) 1 st (0#6) 0 idx (0#8) 0 b).trans
    (by simp only [and_full, and_none, BitVec.ofNat_eq_ofNat, and_true])

theorem rowColLast_hits : rowColLast.hits (dfrKeyOf st idx b) = true ↔ st = 2 ∧ idx = 59 := by
  exact (hits_three (BitVec.allOnes 2) 2 st (BitVec.allOnes 6) 59 idx (0#8) 0 b).trans
    (by simp only [and_full, and_none, BitVec.ofNat_eq_ofNat, and_true])

theorem rowColStore_hits : rowColStore.hits (dfrKeyOf st idx b) = true ↔ st = 2 := by
  exact (hits_three (BitVec.allOnes 2) 2 st (0#6) 0 idx (0#8) 0 b).trans
    (by simp only [and_full, and_none, BitVec.ofNat_eq_ofNat, and_true])

theorem rowRsvSt3_hits : rowRsvSt3.hits (dfrKeyOf st idx b) = true ↔ st = 3 := by
  exact (hits_three (BitVec.allOnes 2) 3 st (0#6) 0 idx (0#8) 0 b).trans
    (by simp only [and_full, and_none, BitVec.ofNat_eq_ofNat, and_true])

theorem rowAccept_hits (len : BitVec 7) (b1 b0 : Byte) :
    rowAccept.hits (pfkKeyOf len b1 b0) = true ↔ len = 60 ∧ b1 = 0xAA ∧ b0 = 0x55 := by
  exact (hits_three (BitVec.allOnes 7) 60 len (BitVec.allOnes 8) 0xAA b1 (BitVec.allOnes 8) 0x55 b0).trans
    (by simp only [and_full])

theorem rowMalformed_hits (w : BitVec 23) : rowMalformed.hits w = true := by
  simp only [Row.hits, rowMalformed, and_none, BitVec.ofNat_eq_ofNat, beq_self_eq_true]

theorem ofBool_eq_one (x : Bool) : BitVec.ofBool x = 1#1 ↔ x = true := by cases x <;> decide

theorem ofBool_eq_zero (x : Bool) : BitVec.ofBool x = 0#1 ↔ x = false := by cases x <;> decide

theorem rowPtLast_hits (pv ready : Bool) (k : BitVec 4) :
    rowPtLast.hits (ptkKeyOf pv ready k) = true ↔ pv = true ∧ ready = true ∧ k = 15 := by
  exact (hits_three (BitVec.allOnes 1) 1 (BitVec.ofBool pv) (BitVec.allOnes 1) 1
    (BitVec.ofBool ready) (BitVec.allOnes 4) 15 k).trans
    (by simp only [and_full, BitVec.ofNat_eq_ofNat, ofBool_eq_one])

theorem rowPtNext_hits (pv ready : Bool) (k : BitVec 4) :
    rowPtNext.hits (ptkKeyOf pv ready k) = true ↔ pv = true ∧ ready = true := by
  exact (hits_three (BitVec.allOnes 1) 1 (BitVec.ofBool pv) (BitVec.allOnes 1) 1
    (BitVec.ofBool ready) (0#4) 0 k).trans
    (by simp only [and_full, and_none, BitVec.ofNat_eq_ofNat, ofBool_eq_one, and_true])

theorem rowPtWait_hits (w : BitVec 6) : rowPtWait.hits w = true := by
  simp only [Row.hits, rowPtWait, and_none, BitVec.ofNat_eq_ofNat, beq_self_eq_true]

theorem rowReset_hits (rst sclr : Bool) : rowReset.hits (pairKeyOf rst sclr) = true ↔ rst = true := by
  cases rst <;> cases sclr <;> decide

theorem rowSclr_hits (rst sclr : Bool) :
    rowSclr.hits (pairKeyOf rst sclr) = true ↔ rst = false ∧ sclr = true := by
  cases rst <;> cases sclr <;> decide

theorem rowFoTake_hits (ov ready : Bool) :
    rowFoTake.hits (pairKeyOf ov ready) = true ↔ ov = true ∧ ready = true := by
  cases ov <;> cases ready <;> decide

/-- The first row that hits is the head of a list, where the head does. -/
theorem firstHit_head {n : Nat} (name : String) (r : Row n) (rest : List (String × Row n))
    (w : BitVec n) (h : r.hits w = true) : firstHit ((name, r) :: rest) w = some name := by
  simp only [firstHit, List.find?_cons, h, Option.map_some]

/-- A head that does not hit is passed over. -/
theorem firstHit_tail {n : Nat} (name : String) (r : Row n) (rest : List (String × Row n))
    (w : BitVec n) (h : ¬r.hits w = true) : firstHit ((name, r) :: rest) w = firstHit rest w := by
  simp only [Bool.not_eq_true] at h
  simp only [firstHit, List.find?_cons, h]

@[simp] theorem keyIdx_dfrKeyOf : keyIdx (dfrKeyOf st idx b) = idx := by
  apply BitVec.eq_of_getLsbD_eq
  intro i hi
  have h8 : ¬8 + i < 8 := by omega
  have e : 8 + i - 8 = i := by omega
  simp only [keyIdx, dfrKeyOf, BitVec.getLsbD_extractLsb', BitVec.getLsbD_append, hi, h8, e,
    decide_true, Bool.true_and, if_true, if_false]

@[simp] theorem keyByte_dfrKeyOf : keyByte (dfrKeyOf st idx b) = b := by
  apply BitVec.eq_of_getLsbD_eq
  intro i hi
  simp only [keyByte, dfrKeyOf, BitVec.getLsbD_extractLsb', BitVec.getLsbD_append, hi, Nat.zero_add,
    decide_true, Bool.true_and, if_true]

end Sys2Proof.Laws
end

