-- ==== Sys2Proof/Laws/State.lean ====
section
/-! SUPPORT. What each named update of a state does to each field: one lemma per field per update, true by
rfl, so that no proof unfolds a record update. -/

namespace Sys2Proof.Laws

open Sys2Proof.Machine

variable (s : State)


@[simp] theorem clearDone_st : (clearDone s).st = s.st := rfl
@[simp] theorem clearDone_idx : (clearDone s).idx = s.idx := rfl
@[simp] theorem clearDone_tlen : (clearDone s).tlen = s.tlen := rfl
@[simp] theorem clearDone_buf : (clearDone s).buf = s.buf := rfl
@[simp] theorem clearDone_ob : (clearDone s).ob = s.ob := rfl
@[simp] theorem clearDone_ov : (clearDone s).ov = s.ov := rfl
@[simp] theorem clearDone_done : (clearDone s).done = false := rfl
@[simp] theorem clearDone_pst : (clearDone s).pst = s.pst := rfl
@[simp] theorem clearDone_k : (clearDone s).k = s.k := rfl
@[simp] theorem clearDone_pv : (clearDone s).pv = s.pv := rfl
@[simp] theorem clearDone_pf : (clearDone s).pf = s.pf := rfl
@[simp] theorem clearDone_errp : (clearDone s).errp = s.errp := rfl
@[simp] theorem clearDone_errs : (clearDone s).errs = s.errs := rfl
@[simp] theorem clearDone_errc : (clearDone s).errc = s.errc := rfl
@[simp] theorem clearDone_build : (clearDone s).build = s.build := rfl
@[simp] theorem clearDone_wiring : (clearDone s).wiring = s.wiring := rfl
@[simp] theorem clearDone_env : (clearDone s).env = s.env := rfl
@[simp] theorem clearDone_tick : (clearDone s).tick = s.tick := rfl
@[simp] theorem clearDone_trace : (clearDone s).trace = s.trace := rfl

@[simp] theorem setDone_st : (setDone s).st = s.st := rfl
@[simp] theorem setDone_idx : (setDone s).idx = s.idx := rfl
@[simp] theorem setDone_tlen : (setDone s).tlen = s.tlen := rfl
@[simp] theorem setDone_buf : (setDone s).buf = s.buf := rfl
@[simp] theorem setDone_ob : (setDone s).ob = s.ob := rfl
@[simp] theorem setDone_ov : (setDone s).ov = true := rfl
@[simp] theorem setDone_done : (setDone s).done = true := rfl
@[simp] theorem setDone_pst : (setDone s).pst = s.pst := rfl
@[simp] theorem setDone_k : (setDone s).k = s.k := rfl
@[simp] theorem setDone_pv : (setDone s).pv = s.pv := rfl
@[simp] theorem setDone_pf : (setDone s).pf = s.pf := rfl
@[simp] theorem setDone_errp : (setDone s).errp = s.errp := rfl
@[simp] theorem setDone_errs : (setDone s).errs = s.errs := rfl
@[simp] theorem setDone_errc : (setDone s).errc = s.errc := rfl
@[simp] theorem setDone_build : (setDone s).build = s.build := rfl
@[simp] theorem setDone_wiring : (setDone s).wiring = s.wiring := rfl
@[simp] theorem setDone_env : (setDone s).env = s.env := rfl
@[simp] theorem setDone_tick : (setDone s).tick = s.tick := rfl
@[simp] theorem setDone_trace : (setDone s).trace = s.trace := rfl

@[simp] theorem clearOv_st : (clearOv s).st = s.st := rfl
@[simp] theorem clearOv_idx : (clearOv s).idx = s.idx := rfl
@[simp] theorem clearOv_tlen : (clearOv s).tlen = s.tlen := rfl
@[simp] theorem clearOv_buf : (clearOv s).buf = s.buf := rfl
@[simp] theorem clearOv_ob : (clearOv s).ob = s.ob := rfl
@[simp] theorem clearOv_ov : (clearOv s).ov = false := rfl
@[simp] theorem clearOv_done : (clearOv s).done = s.done := rfl
@[simp] theorem clearOv_pst : (clearOv s).pst = s.pst := rfl
@[simp] theorem clearOv_k : (clearOv s).k = s.k := rfl
@[simp] theorem clearOv_pv : (clearOv s).pv = s.pv := rfl
@[simp] theorem clearOv_pf : (clearOv s).pf = s.pf := rfl
@[simp] theorem clearOv_errp : (clearOv s).errp = s.errp := rfl
@[simp] theorem clearOv_errs : (clearOv s).errs = s.errs := rfl
@[simp] theorem clearOv_errc : (clearOv s).errc = s.errc := rfl
@[simp] theorem clearOv_build : (clearOv s).build = s.build := rfl
@[simp] theorem clearOv_wiring : (clearOv s).wiring = s.wiring := rfl
@[simp] theorem clearOv_env : (clearOv s).env = s.env := rfl
@[simp] theorem clearOv_tick : (clearOv s).tick = s.tick := rfl
@[simp] theorem clearOv_trace : (clearOv s).trace = s.trace := rfl

@[simp] theorem recordError_st (c : BitVec 2) : (recordError c s).st = s.st := rfl
@[simp] theorem recordError_idx (c : BitVec 2) : (recordError c s).idx = s.idx := rfl
@[simp] theorem recordError_tlen (c : BitVec 2) : (recordError c s).tlen = s.tlen := rfl
@[simp] theorem recordError_buf (c : BitVec 2) : (recordError c s).buf = s.buf := rfl
@[simp] theorem recordError_ob (c : BitVec 2) : (recordError c s).ob = s.ob := rfl
@[simp] theorem recordError_ov (c : BitVec 2) : (recordError c s).ov = s.ov := rfl
@[simp] theorem recordError_done (c : BitVec 2) : (recordError c s).done = s.done := rfl
@[simp] theorem recordError_pst (c : BitVec 2) : (recordError c s).pst = s.pst := rfl
@[simp] theorem recordError_k (c : BitVec 2) : (recordError c s).k = s.k := rfl
@[simp] theorem recordError_pv (c : BitVec 2) : (recordError c s).pv = s.pv := rfl
@[simp] theorem recordError_pf (c : BitVec 2) : (recordError c s).pf = s.pf := rfl
@[simp] theorem recordError_errp (c : BitVec 2) : (recordError c s).errp = true := rfl
@[simp] theorem recordError_errs (c : BitVec 2) : (recordError c s).errs = true := rfl
@[simp] theorem recordError_errc (c : BitVec 2) : (recordError c s).errc = s.errc ||| c := rfl
@[simp] theorem recordError_build (c : BitVec 2) : (recordError c s).build = s.build := rfl
@[simp] theorem recordError_wiring (c : BitVec 2) : (recordError c s).wiring = s.wiring := rfl
@[simp] theorem recordError_env (c : BitVec 2) : (recordError c s).env = s.env := rfl
@[simp] theorem recordError_tick (c : BitVec 2) : (recordError c s).tick = s.tick := rfl
@[simp] theorem recordError_trace (c : BitVec 2) : (recordError c s).trace = s.trace := rfl

@[simp] theorem clearPulses_st : (clearPulses s).st = s.st := rfl
@[simp] theorem clearPulses_idx : (clearPulses s).idx = s.idx := rfl
@[simp] theorem clearPulses_tlen : (clearPulses s).tlen = s.tlen := rfl
@[simp] theorem clearPulses_buf : (clearPulses s).buf = s.buf := rfl
@[simp] theorem clearPulses_ob : (clearPulses s).ob = s.ob := rfl
@[simp] theorem clearPulses_ov : (clearPulses s).ov = s.ov := rfl
@[simp] theorem clearPulses_done : (clearPulses s).done = false := rfl
@[simp] theorem clearPulses_pst : (clearPulses s).pst = s.pst := rfl
@[simp] theorem clearPulses_k : (clearPulses s).k = s.k := rfl
@[simp] theorem clearPulses_pv : (clearPulses s).pv = s.pv := rfl
@[simp] theorem clearPulses_pf : (clearPulses s).pf = s.pf := rfl
@[simp] theorem clearPulses_errp : (clearPulses s).errp = false := rfl
@[simp] theorem clearPulses_errs : (clearPulses s).errs = s.errs := rfl
@[simp] theorem clearPulses_errc : (clearPulses s).errc = s.errc := rfl
@[simp] theorem clearPulses_build : (clearPulses s).build = s.build := rfl
@[simp] theorem clearPulses_wiring : (clearPulses s).wiring = s.wiring := rfl
@[simp] theorem clearPulses_env : (clearPulses s).env = s.env := rfl
@[simp] theorem clearPulses_tick : (clearPulses s).tick = s.tick := rfl
@[simp] theorem clearPulses_trace : (clearPulses s).trace = s.trace := rfl

@[simp] theorem noteByte_st (b : Byte) : (noteByte b s).st = s.st := rfl
@[simp] theorem noteByte_idx (b : Byte) : (noteByte b s).idx = s.idx := rfl
@[simp] theorem noteByte_tlen (b : Byte) : (noteByte b s).tlen = s.tlen := rfl
@[simp] theorem noteByte_buf (b : Byte) : (noteByte b s).buf = s.buf := rfl
@[simp] theorem noteByte_ob (b : Byte) : (noteByte b s).ob = s.ob := rfl
@[simp] theorem noteByte_ov (b : Byte) : (noteByte b s).ov = s.ov := rfl
@[simp] theorem noteByte_done (b : Byte) : (noteByte b s).done = s.done := rfl
@[simp] theorem noteByte_pst (b : Byte) : (noteByte b s).pst = s.pst := rfl
@[simp] theorem noteByte_k (b : Byte) : (noteByte b s).k = s.k := rfl
@[simp] theorem noteByte_pv (b : Byte) : (noteByte b s).pv = s.pv := rfl
@[simp] theorem noteByte_pf (b : Byte) : (noteByte b s).pf = s.pf := rfl
@[simp] theorem noteByte_errp (b : Byte) : (noteByte b s).errp = s.errp := rfl
@[simp] theorem noteByte_errs (b : Byte) : (noteByte b s).errs = s.errs := rfl
@[simp] theorem noteByte_errc (b : Byte) : (noteByte b s).errc = s.errc := rfl
@[simp] theorem noteByte_build (b : Byte) : (noteByte b s).build = s.build := rfl
@[simp] theorem noteByte_wiring (b : Byte) : (noteByte b s).wiring = s.wiring := rfl
@[simp] theorem noteByte_env (b : Byte) : (noteByte b s).env = s.env := rfl
@[simp] theorem noteByte_tick (b : Byte) : (noteByte b s).tick = s.tick := rfl
@[simp] theorem noteByte_trace (b : Byte) :
    (noteByte b s).trace = { s.trace with accepted := s.trace.accepted ++ [.byte b] } := rfl

@[simp] theorem noteSclr_st : (noteSclr s).st = s.st := rfl
@[simp] theorem noteSclr_idx : (noteSclr s).idx = s.idx := rfl
@[simp] theorem noteSclr_tlen : (noteSclr s).tlen = s.tlen := rfl
@[simp] theorem noteSclr_buf : (noteSclr s).buf = s.buf := rfl
@[simp] theorem noteSclr_ob : (noteSclr s).ob = s.ob := rfl
@[simp] theorem noteSclr_ov : (noteSclr s).ov = s.ov := rfl
@[simp] theorem noteSclr_done : (noteSclr s).done = s.done := rfl
@[simp] theorem noteSclr_pst : (noteSclr s).pst = s.pst := rfl
@[simp] theorem noteSclr_k : (noteSclr s).k = s.k := rfl
@[simp] theorem noteSclr_pv : (noteSclr s).pv = s.pv := rfl
@[simp] theorem noteSclr_pf : (noteSclr s).pf = s.pf := rfl
@[simp] theorem noteSclr_errp : (noteSclr s).errp = s.errp := rfl
@[simp] theorem noteSclr_errs : (noteSclr s).errs = s.errs := rfl
@[simp] theorem noteSclr_errc : (noteSclr s).errc = s.errc := rfl
@[simp] theorem noteSclr_build : (noteSclr s).build = s.build := rfl
@[simp] theorem noteSclr_wiring : (noteSclr s).wiring = s.wiring := rfl
@[simp] theorem noteSclr_env : (noteSclr s).env = s.env := rfl
@[simp] theorem noteSclr_tick : (noteSclr s).tick = s.tick := rfl
@[simp] theorem noteSclr_trace :
    (noteSclr s).trace = { s.trace with accepted := s.trace.accepted ++ [.sclr] } := rfl

@[simp] theorem seekHit_st (b : Byte) : (seekHit b s).st = stS2 := rfl
@[simp] theorem seekHit_idx (b : Byte) : (seekHit b s).idx = 1 := rfl
@[simp] theorem seekHit_tlen (b : Byte) : (seekHit b s).tlen = s.tlen := rfl
@[simp] theorem seekHit_buf (b : Byte) : (seekHit b s).buf = s.buf.set 0 b := rfl
@[simp] theorem seekHit_ob (b : Byte) : (seekHit b s).ob = s.ob := rfl
@[simp] theorem seekHit_ov (b : Byte) : (seekHit b s).ov = s.ov := rfl
@[simp] theorem seekHit_done (b : Byte) : (seekHit b s).done = false := rfl
@[simp] theorem seekHit_pst (b : Byte) : (seekHit b s).pst = s.pst := rfl
@[simp] theorem seekHit_k (b : Byte) : (seekHit b s).k = s.k := rfl
@[simp] theorem seekHit_pv (b : Byte) : (seekHit b s).pv = s.pv := rfl
@[simp] theorem seekHit_pf (b : Byte) : (seekHit b s).pf = s.pf := rfl
@[simp] theorem seekHit_errp (b : Byte) : (seekHit b s).errp = s.errp := rfl
@[simp] theorem seekHit_errs (b : Byte) : (seekHit b s).errs = s.errs := rfl
@[simp] theorem seekHit_errc (b : Byte) : (seekHit b s).errc = s.errc := rfl
@[simp] theorem seekHit_build (b : Byte) : (seekHit b s).build = s.build := rfl
@[simp] theorem seekHit_wiring (b : Byte) : (seekHit b s).wiring = s.wiring := rfl
@[simp] theorem seekHit_env (b : Byte) : (seekHit b s).env = s.env := rfl
@[simp] theorem seekHit_tick (b : Byte) : (seekHit b s).tick = s.tick := rfl
@[simp] theorem seekHit_trace (b : Byte) : (seekHit b s).trace = s.trace := rfl

@[simp] theorem seekMiss_st : (seekMiss s).st = s.st := rfl
@[simp] theorem seekMiss_idx : (seekMiss s).idx = 0 := rfl
@[simp] theorem seekMiss_tlen : (seekMiss s).tlen = s.tlen := rfl
@[simp] theorem seekMiss_buf : (seekMiss s).buf = s.buf := rfl
@[simp] theorem seekMiss_ob : (seekMiss s).ob = s.ob := rfl
@[simp] theorem seekMiss_ov : (seekMiss s).ov = s.ov := rfl
@[simp] theorem seekMiss_done : (seekMiss s).done = false := rfl
@[simp] theorem seekMiss_pst : (seekMiss s).pst = s.pst := rfl
@[simp] theorem seekMiss_k : (seekMiss s).k = s.k := rfl
@[simp] theorem seekMiss_pv : (seekMiss s).pv = s.pv := rfl
@[simp] theorem seekMiss_pf : (seekMiss s).pf = s.pf := rfl
@[simp] theorem seekMiss_errp : (seekMiss s).errp = s.errp := rfl
@[simp] theorem seekMiss_errs : (seekMiss s).errs = s.errs := rfl
@[simp] theorem seekMiss_errc : (seekMiss s).errc = s.errc := rfl
@[simp] theorem seekMiss_build : (seekMiss s).build = s.build := rfl
@[simp] theorem seekMiss_wiring : (seekMiss s).wiring = s.wiring := rfl
@[simp] theorem seekMiss_env : (seekMiss s).env = s.env := rfl
@[simp] theorem seekMiss_tick : (seekMiss s).tick = s.tick := rfl
@[simp] theorem seekMiss_trace : (seekMiss s).trace = s.trace := rfl

@[simp] theorem toSeek_st : (toSeek s).st = stS1 := rfl
@[simp] theorem toSeek_idx : (toSeek s).idx = s.idx := rfl
@[simp] theorem toSeek_tlen : (toSeek s).tlen = s.tlen := rfl
@[simp] theorem toSeek_buf : (toSeek s).buf = s.buf := rfl
@[simp] theorem toSeek_ob : (toSeek s).ob = s.ob := rfl
@[simp] theorem toSeek_ov : (toSeek s).ov = s.ov := rfl
@[simp] theorem toSeek_done : (toSeek s).done = s.done := rfl
@[simp] theorem toSeek_pst : (toSeek s).pst = s.pst := rfl
@[simp] theorem toSeek_k : (toSeek s).k = s.k := rfl
@[simp] theorem toSeek_pv : (toSeek s).pv = s.pv := rfl
@[simp] theorem toSeek_pf : (toSeek s).pf = s.pf := rfl
@[simp] theorem toSeek_errp : (toSeek s).errp = s.errp := rfl
@[simp] theorem toSeek_errs : (toSeek s).errs = s.errs := rfl
@[simp] theorem toSeek_errc : (toSeek s).errc = s.errc := rfl
@[simp] theorem toSeek_build : (toSeek s).build = s.build := rfl
@[simp] theorem toSeek_wiring : (toSeek s).wiring = s.wiring := rfl
@[simp] theorem toSeek_env : (toSeek s).env = s.env := rfl
@[simp] theorem toSeek_tick : (toSeek s).tick = s.tick := rfl
@[simp] theorem toSeek_trace : (toSeek s).trace = s.trace := rfl

@[simp] theorem completeFrame_st (b : Byte) : (completeFrame b s).st = stS1 := rfl
@[simp] theorem completeFrame_idx (b : Byte) : (completeFrame b s).idx = 0 := rfl
@[simp] theorem completeFrame_tlen (b : Byte) : (completeFrame b s).tlen = s.tlen := rfl
@[simp] theorem completeFrame_buf (b : Byte) : (completeFrame b s).buf = s.buf.set 59 b := rfl
@[simp] theorem completeFrame_ob (b : Byte) : (completeFrame b s).ob = s.buf.set 59 b := rfl
@[simp] theorem completeFrame_ov (b : Byte) : (completeFrame b s).ov = true := rfl
@[simp] theorem completeFrame_done (b : Byte) : (completeFrame b s).done = true := rfl
@[simp] theorem completeFrame_pst (b : Byte) : (completeFrame b s).pst = s.pst := rfl
@[simp] theorem completeFrame_k (b : Byte) : (completeFrame b s).k = s.k := rfl
@[simp] theorem completeFrame_pv (b : Byte) : (completeFrame b s).pv = s.pv := rfl
@[simp] theorem completeFrame_pf (b : Byte) : (completeFrame b s).pf = s.pf := rfl
@[simp] theorem completeFrame_errp (b : Byte) : (completeFrame b s).errp = s.errp := rfl
@[simp] theorem completeFrame_errs (b : Byte) : (completeFrame b s).errs = s.errs := rfl
@[simp] theorem completeFrame_errc (b : Byte) : (completeFrame b s).errc = s.errc := rfl
@[simp] theorem completeFrame_build (b : Byte) : (completeFrame b s).build = s.build := rfl
@[simp] theorem completeFrame_wiring (b : Byte) : (completeFrame b s).wiring = s.wiring := rfl
@[simp] theorem completeFrame_env (b : Byte) : (completeFrame b s).env = s.env := rfl
@[simp] theorem completeFrame_tick (b : Byte) : (completeFrame b s).tick = s.tick := rfl
@[simp] theorem completeFrame_trace (b : Byte) :
    (completeFrame b s).trace = { s.trace with completed := s.trace.completed ++ [s.buf.set 59 b] } := rfl

@[simp] theorem handOff_st : (handOff s).st = s.st := rfl
@[simp] theorem handOff_idx : (handOff s).idx = s.idx := rfl
@[simp] theorem handOff_tlen : (handOff s).tlen = s.tlen := rfl
@[simp] theorem handOff_buf : (handOff s).buf = s.buf := rfl
@[simp] theorem handOff_ob : (handOff s).ob = s.ob := rfl
@[simp] theorem handOff_ov : (handOff s).ov = false := rfl
@[simp] theorem handOff_done : (handOff s).done = s.done := rfl
@[simp] theorem handOff_pst : (handOff s).pst = s.pst := rfl
@[simp] theorem handOff_k : (handOff s).k = s.k := rfl
@[simp] theorem handOff_pv : (handOff s).pv = s.pv := rfl
@[simp] theorem handOff_pf : (handOff s).pf = s.pf := rfl
@[simp] theorem handOff_errp : (handOff s).errp = s.errp := rfl
@[simp] theorem handOff_errs : (handOff s).errs = s.errs := rfl
@[simp] theorem handOff_errc : (handOff s).errc = s.errc := rfl
@[simp] theorem handOff_build : (handOff s).build = s.build := rfl
@[simp] theorem handOff_wiring : (handOff s).wiring = s.wiring := rfl
@[simp] theorem handOff_env : (handOff s).env = s.env := rfl
@[simp] theorem handOff_tick : (handOff s).tick = s.tick := rfl
@[simp] theorem handOff_trace :
    (handOff s).trace = { s.trace with handed := s.trace.handed ++ [s.ob] } := rfl

@[simp] theorem captureFrame_st (f : Frame) : (captureFrame f s).st = s.st := rfl
@[simp] theorem captureFrame_idx (f : Frame) : (captureFrame f s).idx = s.idx := rfl
@[simp] theorem captureFrame_tlen (f : Frame) : (captureFrame f s).tlen = s.tlen := rfl
@[simp] theorem captureFrame_buf (f : Frame) : (captureFrame f s).buf = s.buf := rfl
@[simp] theorem captureFrame_ob (f : Frame) : (captureFrame f s).ob = s.ob := rfl
@[simp] theorem captureFrame_ov (f : Frame) : (captureFrame f s).ov = s.ov := rfl
@[simp] theorem captureFrame_done (f : Frame) : (captureFrame f s).done = s.done := rfl
@[simp] theorem captureFrame_pst (f : Frame) : (captureFrame f s).pst = s.pst := rfl
@[simp] theorem captureFrame_k (f : Frame) : (captureFrame f s).k = s.k := rfl
@[simp] theorem captureFrame_pv (f : Frame) : (captureFrame f s).pv = s.pv := rfl
@[simp] theorem captureFrame_pf (f : Frame) : (captureFrame f s).pf = f := rfl
@[simp] theorem captureFrame_errp (f : Frame) : (captureFrame f s).errp = s.errp := rfl
@[simp] theorem captureFrame_errs (f : Frame) : (captureFrame f s).errs = s.errs := rfl
@[simp] theorem captureFrame_errc (f : Frame) : (captureFrame f s).errc = s.errc := rfl
@[simp] theorem captureFrame_build (f : Frame) : (captureFrame f s).build = s.build := rfl
@[simp] theorem captureFrame_wiring (f : Frame) : (captureFrame f s).wiring = s.wiring := rfl
@[simp] theorem captureFrame_env (f : Frame) : (captureFrame f s).env = s.env := rfl
@[simp] theorem captureFrame_tick (f : Frame) : (captureFrame f s).tick = s.tick := rfl
@[simp] theorem captureFrame_trace (f : Frame) :
    (captureFrame f s).trace = { s.trace with admitted := s.trace.admitted ++ [f] } := rfl

@[simp] theorem takePoint_st (n : BitVec 4) : (takePoint n s).st = s.st := rfl
@[simp] theorem takePoint_idx (n : BitVec 4) : (takePoint n s).idx = s.idx := rfl
@[simp] theorem takePoint_tlen (n : BitVec 4) : (takePoint n s).tlen = s.tlen := rfl
@[simp] theorem takePoint_buf (n : BitVec 4) : (takePoint n s).buf = s.buf := rfl
@[simp] theorem takePoint_ob (n : BitVec 4) : (takePoint n s).ob = s.ob := rfl
@[simp] theorem takePoint_ov (n : BitVec 4) : (takePoint n s).ov = s.ov := rfl
@[simp] theorem takePoint_done (n : BitVec 4) : (takePoint n s).done = s.done := rfl
@[simp] theorem takePoint_pst (n : BitVec 4) : (takePoint n s).pst = s.pst := rfl
@[simp] theorem takePoint_k (n : BitVec 4) : (takePoint n s).k = s.k := rfl
@[simp] theorem takePoint_pv (n : BitVec 4) : (takePoint n s).pv = s.pv := rfl
@[simp] theorem takePoint_pf (n : BitVec 4) : (takePoint n s).pf = s.pf := rfl
@[simp] theorem takePoint_errp (n : BitVec 4) : (takePoint n s).errp = s.errp := rfl
@[simp] theorem takePoint_errs (n : BitVec 4) : (takePoint n s).errs = s.errs := rfl
@[simp] theorem takePoint_errc (n : BitVec 4) : (takePoint n s).errc = s.errc := rfl
@[simp] theorem takePoint_build (n : BitVec 4) : (takePoint n s).build = s.build := rfl
@[simp] theorem takePoint_wiring (n : BitVec 4) : (takePoint n s).wiring = s.wiring := rfl
@[simp] theorem takePoint_env (n : BitVec 4) : (takePoint n s).env = s.env := rfl
@[simp] theorem takePoint_tick (n : BitVec 4) : (takePoint n s).tick = s.tick := rfl
@[simp] theorem takePoint_trace (n : BitVec 4) :
    (takePoint n s).trace = { s.trace with points := s.trace.points ++ [point s.build.params s.pf n] } := rfl

@[simp] theorem raiseMalformed_st (c : BitVec 2) : (raiseMalformed c s).st = s.st := rfl
@[simp] theorem raiseMalformed_idx (c : BitVec 2) : (raiseMalformed c s).idx = s.idx := rfl
@[simp] theorem raiseMalformed_tlen (c : BitVec 2) : (raiseMalformed c s).tlen = s.tlen := rfl
@[simp] theorem raiseMalformed_buf (c : BitVec 2) : (raiseMalformed c s).buf = s.buf := rfl
@[simp] theorem raiseMalformed_ob (c : BitVec 2) : (raiseMalformed c s).ob = s.ob := rfl
@[simp] theorem raiseMalformed_ov (c : BitVec 2) : (raiseMalformed c s).ov = s.ov := rfl
@[simp] theorem raiseMalformed_done (c : BitVec 2) : (raiseMalformed c s).done = s.done := rfl
@[simp] theorem raiseMalformed_pst (c : BitVec 2) : (raiseMalformed c s).pst = s.pst := rfl
@[simp] theorem raiseMalformed_k (c : BitVec 2) : (raiseMalformed c s).k = s.k := rfl
@[simp] theorem raiseMalformed_pv (c : BitVec 2) : (raiseMalformed c s).pv = s.pv := rfl
@[simp] theorem raiseMalformed_pf (c : BitVec 2) : (raiseMalformed c s).pf = s.pf := rfl
@[simp] theorem raiseMalformed_errp (c : BitVec 2) : (raiseMalformed c s).errp = true := rfl
@[simp] theorem raiseMalformed_errs (c : BitVec 2) : (raiseMalformed c s).errs = true := rfl
@[simp] theorem raiseMalformed_errc (c : BitVec 2) : (raiseMalformed c s).errc = s.errc ||| c := rfl
@[simp] theorem raiseMalformed_build (c : BitVec 2) : (raiseMalformed c s).build = s.build := rfl
@[simp] theorem raiseMalformed_wiring (c : BitVec 2) : (raiseMalformed c s).wiring = s.wiring := rfl
@[simp] theorem raiseMalformed_env (c : BitVec 2) : (raiseMalformed c s).env = s.env := rfl
@[simp] theorem raiseMalformed_tick (c : BitVec 2) : (raiseMalformed c s).tick = s.tick := rfl
@[simp] theorem raiseMalformed_trace (c : BitVec 2) : (raiseMalformed c s).trace = s.trace := rfl

@[simp] theorem resetRegisters_st : (resetRegisters s).st = stS1 := rfl
@[simp] theorem resetRegisters_idx : (resetRegisters s).idx = 0 := rfl
@[simp] theorem resetRegisters_tlen : (resetRegisters s).tlen = 60 := rfl
@[simp] theorem resetRegisters_buf : (resetRegisters s).buf = Config.resetArray .buf s.tick := rfl
@[simp] theorem resetRegisters_ob : (resetRegisters s).ob = Config.resetArray .ob s.tick := rfl
@[simp] theorem resetRegisters_ov : (resetRegisters s).ov = false := rfl
@[simp] theorem resetRegisters_done : (resetRegisters s).done = false := rfl
@[simp] theorem resetRegisters_pst : (resetRegisters s).pst = .idle := rfl
@[simp] theorem resetRegisters_k : (resetRegisters s).k = 0 := rfl
@[simp] theorem resetRegisters_pv : (resetRegisters s).pv = false := rfl
@[simp] theorem resetRegisters_pf : (resetRegisters s).pf = Config.resetArray .pf s.tick := rfl
@[simp] theorem resetRegisters_errp : (resetRegisters s).errp = false := rfl
@[simp] theorem resetRegisters_errs : (resetRegisters s).errs = false := rfl
@[simp] theorem resetRegisters_errc : (resetRegisters s).errc = 0 := rfl
@[simp] theorem resetRegisters_build : (resetRegisters s).build = s.build := rfl
@[simp] theorem resetRegisters_wiring : (resetRegisters s).wiring = s.wiring := rfl
@[simp] theorem resetRegisters_env : (resetRegisters s).env = s.env := rfl
@[simp] theorem resetRegisters_tick : (resetRegisters s).tick = s.tick := rfl
@[simp] theorem resetRegisters_trace : (resetRegisters s).trace = Trace.empty := rfl

@[simp] theorem beginEdge_st : (beginEdge s).st = s.st := rfl
@[simp] theorem beginEdge_idx : (beginEdge s).idx = s.idx := rfl
@[simp] theorem beginEdge_tlen : (beginEdge s).tlen = s.tlen := rfl
@[simp] theorem beginEdge_buf : (beginEdge s).buf = s.buf := rfl
@[simp] theorem beginEdge_ob : (beginEdge s).ob = s.ob := rfl
@[simp] theorem beginEdge_ov : (beginEdge s).ov = s.ov := rfl
@[simp] theorem beginEdge_done : (beginEdge s).done = false := rfl
@[simp] theorem beginEdge_pst : (beginEdge s).pst = s.pst := rfl
@[simp] theorem beginEdge_k : (beginEdge s).k = s.k := rfl
@[simp] theorem beginEdge_pv : (beginEdge s).pv = s.pv := rfl
@[simp] theorem beginEdge_pf : (beginEdge s).pf = s.pf := rfl
@[simp] theorem beginEdge_errp : (beginEdge s).errp = false := rfl
@[simp] theorem beginEdge_errs : (beginEdge s).errs = s.errs := rfl
@[simp] theorem beginEdge_errc : (beginEdge s).errc = s.errc := rfl
@[simp] theorem beginEdge_build : (beginEdge s).build = s.build := rfl
@[simp] theorem beginEdge_wiring : (beginEdge s).wiring = s.wiring := rfl
@[simp] theorem beginEdge_env : (beginEdge s).env = s.env := rfl
@[simp] theorem beginEdge_tick : (beginEdge s).tick = s.tick := rfl
@[simp] theorem beginEdge_trace : (beginEdge s).trace = s.trace := rfl

@[simp] theorem endEdge_st (d : Build) : (endEdge d s).st = s.st := rfl
@[simp] theorem endEdge_idx (d : Build) : (endEdge d s).idx = s.idx := rfl
@[simp] theorem endEdge_tlen (d : Build) : (endEdge d s).tlen = s.tlen := rfl
@[simp] theorem endEdge_buf (d : Build) : (endEdge d s).buf = s.buf := rfl
@[simp] theorem endEdge_ob (d : Build) : (endEdge d s).ob = s.ob := rfl
@[simp] theorem endEdge_ov (d : Build) : (endEdge d s).ov = s.ov := rfl
@[simp] theorem endEdge_done (d : Build) : (endEdge d s).done = s.done := rfl
@[simp] theorem endEdge_pst (d : Build) : (endEdge d s).pst = s.pst := rfl
@[simp] theorem endEdge_k (d : Build) : (endEdge d s).k = s.k := rfl
@[simp] theorem endEdge_pv (d : Build) : (endEdge d s).pv = s.pv := rfl
@[simp] theorem endEdge_pf (d : Build) : (endEdge d s).pf = s.pf := rfl
@[simp] theorem endEdge_errp (d : Build) : (endEdge d s).errp = s.errp := rfl
@[simp] theorem endEdge_errs (d : Build) : (endEdge d s).errs = s.errs := rfl
@[simp] theorem endEdge_errc (d : Build) : (endEdge d s).errc = s.errc := rfl
@[simp] theorem endEdge_build (d : Build) : (endEdge d s).build = d := rfl
@[simp] theorem endEdge_wiring (d : Build) : (endEdge d s).wiring = s.wiring := rfl
@[simp] theorem endEdge_env (d : Build) : (endEdge d s).env = s.env.tail := rfl
@[simp] theorem endEdge_tick (d : Build) : (endEdge d s).tick = s.tick + 1 := rfl
@[simp] theorem endEdge_trace (d : Build) : (endEdge d s).trace = s.trace := rfl

@[simp] theorem drive_st (p : Pins) : (drive p s).st = s.st := rfl
@[simp] theorem drive_idx (p : Pins) : (drive p s).idx = s.idx := rfl
@[simp] theorem drive_tlen (p : Pins) : (drive p s).tlen = s.tlen := rfl
@[simp] theorem drive_buf (p : Pins) : (drive p s).buf = s.buf := rfl
@[simp] theorem drive_ob (p : Pins) : (drive p s).ob = s.ob := rfl
@[simp] theorem drive_ov (p : Pins) : (drive p s).ov = s.ov := rfl
@[simp] theorem drive_done (p : Pins) : (drive p s).done = s.done := rfl
@[simp] theorem drive_pst (p : Pins) : (drive p s).pst = s.pst := rfl
@[simp] theorem drive_k (p : Pins) : (drive p s).k = s.k := rfl
@[simp] theorem drive_pv (p : Pins) : (drive p s).pv = s.pv := rfl
@[simp] theorem drive_pf (p : Pins) : (drive p s).pf = s.pf := rfl
@[simp] theorem drive_errp (p : Pins) : (drive p s).errp = s.errp := rfl
@[simp] theorem drive_errs (p : Pins) : (drive p s).errs = s.errs := rfl
@[simp] theorem drive_errc (p : Pins) : (drive p s).errc = s.errc := rfl
@[simp] theorem drive_build (p : Pins) : (drive p s).build = s.build := rfl
@[simp] theorem drive_wiring (p : Pins) : (drive p s).wiring = s.wiring := rfl
@[simp] theorem drive_env (p : Pins) : (drive p s).env = p :: s.env.tail := rfl
@[simp] theorem drive_tick (p : Pins) : (drive p s).tick = s.tick := rfl
@[simp] theorem drive_trace (p : Pins) : (drive p s).trace = s.trace := rfl

end Sys2Proof.Laws
end

