-- ==== Sys2Proof/Laws/Ops.lean ====
section
/-! SUPPORT. For each shared operation, once, everything it can do; and the frame bus bit by bit. -/

namespace Sys2Proof.Laws

open Sys2Proof.Machine

/-- A sequence answers next where both parts do. -/
theorem andThen_eq_next {r : Result} {f : State → Result} {t : State} :
    andThen r f = .next t ↔ ∃ u, r = .next u ∧ f u = .next t := by
  cases r <;> simp [andThen]

@[simp] theorem andThen_next (s : State) (f : State → Result) : andThen (.next s) f = f s := rfl

/-- A store answers next exactly at an index of the array, and writes that entry and nothing else. -/
theorem storeBuf_eq_next {i : BitVec 6} {b : Byte} {s t : State} :
    storeBuf i b s = .next t ↔
      ∃ h : i.toNat < 60, t = { s with buf := s.buf.set i.toNat b h } := by
  unfold storeBuf
  split
  · constructor
    · intro h
      cases h
      exact ⟨‹_›, rfl⟩
    · rintro ⟨_, rfl⟩
      rfl
  · constructor
    · intro h
      cases h
    · rintro ⟨h, _⟩
      exact absurd h ‹_›

/-- A store in range. -/
theorem storeBuf_of_lt {i : BitVec 6} {b : Byte} {s : State} (h : i.toNat < 60) :
    storeBuf i b s = .next { s with buf := s.buf.set i.toNat b h } := by
  simp only [storeBuf, h, dif_pos]

/-- A store out of range stops. -/
theorem storeBuf_of_ge {i : BitVec 6} {b : Byte} {s : State} (h : 60 ≤ i.toNat) :
    storeBuf i b s = .fault .noSuchEntry := by
  have : ¬i.toNat < 60 := by omega
  simp only [storeBuf, this, dif_neg, not_false_eq_true]

@[simp] theorem execAll_nil (s : State) : execAll [] s = .next s := rfl

@[simp] theorem execAll_cons (i : Instr) (is : List Instr) (s : State) :
    execAll (i :: is) s = andThen (exec i s) (execAll is) := rfl

/-- Operations run one list after the other. -/
theorem execAll_append (is js : List Instr) (s : State) :
    execAll (is ++ js) s = andThen (execAll is s) (execAll js) := by
  induction is generalizing s with
  | nil => rfl
  | cons i is ih =>
    simp only [List.cons_append, execAll_cons]
    cases exec i s <;> simp [andThen, ih]

/-- A step answers next exactly where the parameter setting is admitted and every selected operation
answers next; the new cycle then begins under the admitted build. -/
theorem step_eq_next {s t : State} :
    step s = .next t ↔
      ∃ b u, admitParams s = .ok b ∧ execAll (selected s) (beginEdge s) = .next u ∧
        t = endEdge b u := by
  unfold step edge
  constructor
  · intro h
    split at h
    · cases h
    · rename_i b hb
      obtain ⟨u, hu, ht⟩ := andThen_eq_next.1 h
      cases ht
      exact ⟨b, u, hb, hu, rfl⟩
  · rintro ⟨b, u, hb, hu, rfl⟩
    simp only [hb, hu, andThen_next]

/-- At an edge with rst = 1 the control key is the only key formed. -/
theorem formedKeys_of_rst {s : State} (h : (pins s).rst = true) :
    formedKeys s = [.ctl (pairKeyOf true (pins s).sclr)] := by
  simp only [formedKeys, h, if_true, ctlKey]

/-- The keys of an edge with rst = 0. -/
theorem formedKeys_of_not_rst {s : State} (h : (pins s).rst = false) :
    formedKeys s =
      (if accf s then [.pfk (pfkKey s)] else [])
        ++ (if s.pst = .run then [.ptk (ptkKey s)] else [])
        ++ [.fox (pairKeyOf s.ov (foReady s)), .ctl (pairKeyOf false (pins s).sclr)]
        ++ (if acc s then [.dfr (dfrKeyOf s.st s.idx (pins s).inData)] else []) := by
  simp only [formedKeys, h, Bool.false_eq_true, if_false, ctlKey, foxKey, dfrKey]

/-- A parameter setting is admitted in three ways: none is made, none is changed, or a legal one is set at
an edge with rst = 1. -/
theorem admitParams_eq_ok {s : State} {b : Build} :
    admitParams s = .ok b ↔
      ((pins s).params = none ∧ b = s.build) ∨
        (∃ p, (pins s).params = some p ∧ p = s.build.params ∧ b = s.build) ∨
        (∃ p, (pins s).params = some p ∧ p ≠ s.build.params ∧ (pins s).rst = true ∧
          ∃ h : legalParams p = true, b = ⟨p, h⟩) := by
  unfold admitParams
  constructor
  · intro h
    split at h
    · cases h
      exact .inl ⟨‹_›, rfl⟩
    · split at h
      · cases h
        exact .inr (.inl ⟨_, ‹_›, ‹_›, rfl⟩)
      · split at h
        · split at h
          · cases h
            exact .inr (.inr ⟨_, ‹_›, ‹_›, ‹_›, ‹_›, rfl⟩)
          · cases h
        · cases h
  · rintro (⟨hn, rfl⟩ | ⟨p, hp, he, rfl⟩ | ⟨p, hp, he, hr, hl, rfl⟩)
    · simp only [hn]
    · simp only [hp, he, if_true]
    · simp only [hp, he, hr, hl, if_true, if_false, dif_pos]

/-- The inputs of a cycle are the head of `env`. -/
@[simp] theorem pins_drive (p : Pins) (s : State) : pins (drive p s) = p := rfl

/-- Byte j of a bus, read back from the frame it carries. -/
theorem unpack_entry (w : BitVec 480) (j : Nat) (h : j < 60) : entry (unpack w) j h = busByte w j := by
  simp only [entry, unpack, Vector.getElem_ofFn]

/-- Bit m of byte j of a bus is bit 8j + m. -/
theorem busByte_bit (w : BitVec 480) (j m : Nat) (hm : m < 8) :
    (busByte w j).getLsbD m = w.getLsbD (8 * j + m) := by
  simp only [busByte, BitVec.getLsbD_extractLsb', hm, decide_true, Bool.true_and]

/-- Bit 8j + m of a packed frame is bit m of byte j. -/
theorem pack_bit (f : Frame) (j m : Nat) (h : j < 60) (hm : m < 8) :
    (pack f).getLsbD (8 * j + m) = (entry f j h).getLsbD m := by
  have h1 : 8 * j + m < 480 := by omega
  have h2 : (8 * j + m) / 8 = j := by omega
  have h3 : (8 * j + m) % 8 = m := by omega
  simp only [pack, BitVec.getLsbD_ofFnLE, h1, dif_pos, h2, h3]

/-- Writing one entry of an array. -/
theorem entry_set (f : Frame) (i j : Nat) (b : Byte) (hi : i < 60) (hj : j < 60) :
    entry (f.set i b hi) j hj = if i = j then b else entry f j hj := by
  simp only [entry, Vector.getElem_set]

/-- The CHECK bits are the two causes. -/
theorem checkCause_bit_zero (len : BitVec 7) (f0 f1 : Byte) :
    (checkCause len f0 f1).getLsbD 0 = causeLen len := by
  simp only [checkCause, BitVec.getLsbD_append]
  cases causeLen len <;> simp

theorem checkCause_bit_one (len : BitVec 7) (f0 f1 : Byte) :
    (checkCause len f0 f1).getLsbD 1 = causeHdr len f0 f1 := by
  simp only [checkCause, BitVec.getLsbD_append]
  cases causeHdr len f0 f1 <;> simp

end Sys2Proof.Laws
end

