-- ==== Sys2Proof/Laws/PerInstr.lean ====
section
/-! SUPPORT. The family EncodesOwnRow: the key of a well-formed operation is one whose FIRST matching row in
the opcode table is the operation's own (30_encoding.md R84 to R89). -/

namespace Sys2Proof.Laws

/-- The first row of the opcode table that the operation's key hits carries its mnemonic. -/
def EncodesOwnRow.Statement (i : Instr) : Prop :=
  i.wf = true → tableMnemonic (encode i) = some i.mnemonic

/-- The rows of R85 over a key's fields, as one list of conditions. -/
theorem dfrTable_firstHit (st : BitVec 2) (idx : BitVec 6) (b : Byte) :
    firstHit dfrTable (dfrKeyOf st idx b) =
      if st = 0 ∧ b = 0x55 then some "DFR_HDR1_MATCH" else if st = 0 then some "DFR_HDR1_SKIP"
      else if st = 1 ∧ b = 0xAA then some "DFR_HDR2_MATCH"
      else if st = 1 ∧ b = 0x55 then some "DFR_HDR2_FAIL_RESYNC"
      else if st = 1 then some "DFR_HDR2_FAIL_SKIP"
      else if st = 2 ∧ idx = 59 then some "DFR_COL_LAST" else if st = 2 then some "DFR_COL_STORE"
      else if st = 3 then some "DFR_RSV_ST3" else none := by
  have step : ∀ (name : String) (r : Row 16) (rest : List (String × Row 16)) (w : BitVec 16),
      firstHit ((name, r) :: rest) w = if r.hits w = true then some name else firstHit rest w := by
    intro name r rest w
    by_cases h : r.hits w = true
    · rw [firstHit_head _ _ _ _ h, if_pos h]
    · rw [firstHit_tail _ _ _ _ h, if_neg h]
  simp only [dfrTable, step, rowHdr1Match_hits, rowHdr1Skip_hits, rowHdr2Match_hits,
    rowHdr2FailResync_hits, rowHdr2FailSkip_hits, rowColLast_hits, rowColStore_hits, rowRsvSt3_hits]
  rfl

theorem EncodesOwnRow.dfrHdr1Match (idx : BitVec 6) : Statement (.dfrHdr1Match idx) := by
  intro _
  simp [encode, tableMnemonic, Instr.mnemonic, dfrTable_firstHit]

theorem EncodesOwnRow.dfrHdr1Skip (idx : BitVec 6) (b : Byte) : Statement (.dfrHdr1Skip idx b) := by
  intro h
  simp_all [encode, tableMnemonic, Instr.mnemonic, Instr.wf, dfrTable_firstHit]

theorem EncodesOwnRow.dfrHdr2Match (idx : BitVec 6) : Statement (.dfrHdr2Match idx) := by
  intro _
  simp [encode, tableMnemonic, Instr.mnemonic, dfrTable_firstHit]

theorem EncodesOwnRow.dfrHdr2FailResync (idx : BitVec 6) : Statement (.dfrHdr2FailResync idx) := by
  intro _
  simp [encode, tableMnemonic, Instr.mnemonic, dfrTable_firstHit]

theorem EncodesOwnRow.dfrHdr2FailSkip (idx : BitVec 6) (b : Byte) :
    Statement (.dfrHdr2FailSkip idx b) := by
  intro h
  simp_all [encode, tableMnemonic, Instr.mnemonic, Instr.wf, dfrTable_firstHit]

theorem EncodesOwnRow.dfrColLast (b : Byte) : Statement (.dfrColLast b) := by
  intro _
  simp [encode, tableMnemonic, Instr.mnemonic, dfrTable_firstHit]

theorem EncodesOwnRow.dfrColStore (idx : BitVec 6) (b : Byte) : Statement (.dfrColStore idx b) := by
  intro h
  simp_all [encode, tableMnemonic, Instr.mnemonic, Instr.wf, dfrTable_firstHit]

theorem EncodesOwnRow.dfrRsvSt3 (idx : BitVec 6) (b : Byte) : Statement (.dfrRsvSt3 idx b) := by
  intro _
  simp [encode, tableMnemonic, Instr.mnemonic, dfrTable_firstHit]

theorem EncodesOwnRow.prjAccept : Statement .prjAccept := fun _ =>
  firstHit_head _ _ _ _ ((rowAccept_hits _ _ _).2 ⟨rfl, rfl, rfl⟩)

theorem EncodesOwnRow.prjMalformed (len : BitVec 7) (b1 b0 : Byte) :
    Statement (.prjMalformed len b1 b0) := by
  intro h
  have hn : ¬rowAccept.hits (pfkKeyOf len b1 b0) = true := by
    rw [rowAccept_hits]
    rintro ⟨rfl, rfl, rfl⟩
    revert h
    decide
  exact (firstHit_tail _ _ _ _ hn).trans (firstHit_head _ _ _ _ (rowMalformed_hits _))

theorem EncodesOwnRow.prjPtLast : Statement .prjPtLast := fun _ =>
  firstHit_head _ _ _ _ ((rowPtLast_hits _ _ _).2 ⟨rfl, rfl, rfl⟩)

theorem EncodesOwnRow.prjPtNext (k : BitVec 4) : Statement (.prjPtNext k) := by
  intro h
  have hk : k ≠ 15 := by simpa [Instr.wf] using h
  have hn : ¬rowPtLast.hits (ptkKeyOf true true k) = true := by
    rw [rowPtLast_hits]
    rintro ⟨_, _, rfl⟩
    exact hk rfl
  exact (firstHit_tail _ _ _ _ hn).trans
    (firstHit_head _ _ _ _ ((rowPtNext_hits _ _ _).2 ⟨rfl, rfl⟩))

theorem EncodesOwnRow.prjPtWait (pv ptReady : Bool) (k : BitVec 4) :
    Statement (.prjPtWait pv ptReady k) := by
  intro h
  have hw : ¬(pv = true ∧ ptReady = true) := by
    rintro ⟨rfl, rfl⟩
    revert h
    simp [Instr.wf]
  have hl : ¬rowPtLast.hits (ptkKeyOf pv ptReady k) = true := by
    rw [rowPtLast_hits]
    exact fun c => hw ⟨c.1, c.2.1⟩
  have hn : ¬rowPtNext.hits (ptkKeyOf pv ptReady k) = true := by
    rw [rowPtNext_hits]
    exact hw
  exact (firstHit_tail _ _ _ _ hl).trans
    ((firstHit_tail _ _ _ _ hn).trans (firstHit_head _ _ _ _ (rowPtWait_hits _)))

theorem EncodesOwnRow.reset (sclr : Bool) : Statement (.reset sclr) := fun _ =>
  firstHit_head _ _ _ _ ((rowReset_hits _ _).2 rfl)

theorem EncodesOwnRow.dfrSclr : Statement .dfrSclr := fun _ => by decide

theorem EncodesOwnRow.dfrFoTake : Statement .dfrFoTake := fun _ => by decide

end Sys2Proof.Laws
end

