-- ==== Sys2Proof/Tests/Slice0.lean ====
section
/-! SUPPORT. The model's own tests. Expected values are those of spec/95_test_vectors.md (the vector is named)
or written out by hand from the rule named. After the tests, a witness for every statement that has
hypotheses. -/

namespace Sys2Proof.Tests

open Sys2Proof.Machine Sys2Proof.Safety

/-- One value read from a next state. -/
def read {α : Type} (r : Result) (f : State → α) : Option α :=
  match r with
  | .next s => some (f s)
  | _ => none

/-- The reset state with the recognizer at (ST, IDX). -/
def at_ (st : BitVec 2) (idx : BitVec 6) : State := { State.reset with st := st, idx := idx }

/-! ## WellFormed: each check refuses an ill-formed term -/

theorem test_wf_hdr1Skip_55 : (Instr.dfrHdr1Skip 0 0x55).wf = false := by decide
theorem test_wf_hdr2FailSkip_AA : (Instr.dfrHdr2FailSkip 1 0xAA).wf = false := by decide
theorem test_wf_hdr2FailSkip_55 : (Instr.dfrHdr2FailSkip 1 0x55).wf = false := by decide
theorem test_wf_colStore_59 : (Instr.dfrColStore 59 7).wf = false := by decide
theorem test_wf_malformed_accept_key : (Instr.prjMalformed 60 0xAA 0x55).wf = false := by decide
theorem test_wf_ptNext_15 : (Instr.prjPtNext 15).wf = false := by decide
theorem test_wf_ptWait_taken : (Instr.prjPtWait true true 3).wf = false := by decide

/-! ## Decode: one key of every row, bit by bit -/

/-- V-DFR-S S1: ST 00, IDX 000000, byte 01010101. -/
theorem test_decode_hdr1Match : decode (.dfr 0b0000000001010101) = .ok (.dfrHdr1Match 0) := by decide
/-- V-DFR-S S3: ST 00, IDX 000000, byte 10101010. -/
theorem test_decode_hdr1Skip : decode (.dfr 0b0000000010101010) = .ok (.dfrHdr1Skip 0 0xAA) := by decide
/-- V-DFR-S S5: ST 01, IDX 000001, byte 10101010. -/
theorem test_decode_hdr2Match : decode (.dfr 0b0100000110101010) = .ok (.dfrHdr2Match 1) := by decide
/-- V-DFR-S S6: ST 01, IDX 000001, byte 01010101. -/
theorem test_decode_hdr2FailResync :
    decode (.dfr 0b0100000101010101) = .ok (.dfrHdr2FailResync 1) := by decide
/-- V-DFR-S S8: ST 01, IDX 000001, byte 10101011. -/
theorem test_decode_hdr2FailSkip :
    decode (.dfr 0b0100000110101011) = .ok (.dfrHdr2FailSkip 1 0xAB) := by decide
/-- V-DFR-S S11: ST 10, IDX 111010, byte 00000000. -/
theorem test_decode_colStore : decode (.dfr 0b1011101000000000) = .ok (.dfrColStore 58 0) := by decide
/-- V-DFR-S S12: ST 10, IDX 111011, byte 00000111. -/
theorem test_decode_colLast : decode (.dfr 0b1011101100000111) = .ok (.dfrColLast 7) := by decide
/-- V-DFR-S S13: ST 11, IDX 000101, byte 01010101. -/
theorem test_decode_rsvSt3 : decode (.dfr 0b1100010101010101) = .ok (.dfrRsvSt3 5 0x55) := by decide
/-- V-PRJ-1a: length 0111100, byte 1 10101010, byte 0 01010101. -/
theorem test_decode_accept : decode (.pfk 0b01111001010101001010101) = .ok .prjAccept := by decide
/-- V-PRJ-1b: byte 1 is 10101011. -/
theorem test_decode_malformed :
    decode (.pfk 0b01111001010101101010101) = .ok (.prjMalformed 60 0xAB 0x55) := by decide
/-- V-PRJ-11e: PV 1, pt_ready 1, K 1111. -/
theorem test_decode_ptLast : decode (.ptk 0b111111) = .ok .prjPtLast := by decide
/-- V-PRJ-11a: PV 1, pt_ready 1, K 0011. -/
theorem test_decode_ptNext : decode (.ptk 0b110011) = .ok (.prjPtNext 3) := by decide
/-- V-PRJ-11b: PV 1, pt_ready 0, K 0011. -/
theorem test_decode_ptWait : decode (.ptk 0b100011) = .ok (.prjPtWait true false 3) := by decide
/-- R89: rst 1, sclr 1 is RESET. -/
theorem test_decode_reset : decode (.ctl 0b11) = .ok (.reset true) := by decide
/-- R89: rst 0, sclr 1. -/
theorem test_decode_sclr : decode (.ctl 0b01) = .ok .dfrSclr := by decide
/-- R89: OV 1, fo_ready 1. -/
theorem test_decode_foTake : decode (.fox 0b11) = .ok .dfrFoTake := by decide
/-- R89: neither bit selects an operation. -/
theorem test_decode_no_control : decode (.ctl 0b00) = .error .noOperation := by decide
/-- R89: a held frame that is not taken selects no operation. -/
theorem test_decode_no_take : decode (.fox 0b10) = .error .noOperation := by decide
/-- Bit 23 of a 24-bit word is no bit of the PFK key (log 11). -/
theorem test_tableWord_stray_bit : decodeTableWord 24 0x800000 = none := by decide

/-! ## The operations -/

/-- V-DFR-S S1. -/
theorem test_hdr1Match :
    read (exec (.dfrHdr1Match 0) (at_ stS1 0)) (fun s => (s.st, s.idx, s.buf[0], s.done)) =
      some (stS2, 1, 0x55, false) := by decide
/-- V-DFR-S S3. -/
theorem test_hdr1Skip :
    read (exec (.dfrHdr1Skip 0 0xAA) (at_ stS1 0)) (fun s => (s.st, s.idx, s.done)) =
      some (stS1, 0, false) := by decide
/-- V-DFR-S S5. -/
theorem test_hdr2Match :
    read (exec (.dfrHdr2Match 1) { at_ stS2 1 with tlen := 0 })
      (fun s => (s.st, s.idx, s.buf[1], s.tlen)) = some (stCol, 2, 0xAA, 60) := by decide
/-- V-DFR-S S6. -/
theorem test_hdr2FailResync :
    read (exec (.dfrHdr2FailResync 1) (at_ stS2 1)) (fun s => (s.st, s.idx, s.buf[0])) =
      some (stS2, 1, 0x55) := by decide
/-- V-DFR-S S8. -/
theorem test_hdr2FailSkip :
    read (exec (.dfrHdr2FailSkip 1 0xAB) (at_ stS2 1)) (fun s => (s.st, s.idx)) =
      some (stS1, 0) := by decide
/-- V-DFR-S S9: a header byte inside a frame is data. -/
theorem test_colStore :
    read (exec (.dfrColStore 2 0x55) (at_ stCol 2)) (fun s => (s.st, s.idx, s.buf[2], s.done)) =
      some (stCol, 3, 0x55, false) := by decide
/-- V-DFR-S S12. -/
theorem test_colLast :
    read (exec (.dfrColLast 7) (at_ stCol 59))
      (fun s => (s.st, s.idx, s.ob[59], s.ov, s.done)) = some (stS1, 0, 7, true, true) := by decide
/-- V-DFR-S S13. -/
theorem test_rsvSt3_55 :
    read (exec (.dfrRsvSt3 5 0x55) (at_ stRsv 5)) (fun s => (s.st, s.idx, s.buf[0])) =
      some (stS2, 1, 0x55) := by decide
/-- V-DFR-S S14. -/
theorem test_rsvSt3_12 :
    read (exec (.dfrRsvSt3 5 0x12) (at_ stRsv 5)) (fun s => (s.st, s.idx)) = some (stS1, 0) := by decide
/-- R109, its example. -/
theorem test_sclr :
    read (exec .dfrSclr { at_ stCol 17 with ov := true }) (fun s => (s.st, s.idx, s.ov)) =
      some (stS1, 0, true) := by decide
/-- R113, its example. -/
theorem test_foTake :
    read (exec .dfrFoTake { State.reset with ov := true }) (fun s => s.ov) = some false := by decide
/-- V-PRJ-11g. -/
theorem test_accept :
    read (exec .prjAccept
        { State.reset with
          wiring := .unitsAlone
          env := [{ Pins.idle with draw := true, fiData := 0x0302AA55 }] })
      (fun s => (s.pst, s.k, s.pv, s.pf[0], s.pf[1], s.pf[3])) =
      some (.run, 0, true, 0x55, 0xAA, 3) := by decide +kernel
/-- P4, the second frame: its cause joins the first one's. -/
theorem test_malformed :
    read (exec (.prjMalformed 60 0xAB 0x55) { State.reset with errs := true, errc := 0b01 })
      (fun s => (s.pst, s.errp, s.errs, s.errc)) = some (.idle, true, true, 0b11) := by decide
/-- V-PRJ-1f, 1g, 1h: a frame shorter than 2 bytes has no header. -/
theorem test_check_short :
    (checkCause 0 0x55 0xAA, checkCause 1 0x55 0xAA, checkCause 2 0x55 0xAA) = (3, 3, 1) := by decide
/-- V-PRJ-11a. -/
theorem test_ptNext :
    read (exec (.prjPtNext 3)
        { State.reset with pst := .run, k := 3, pv := true, env := [{ Pins.idle with draw := true }] })
      (fun s => (s.pst, s.k, s.pv, s.trace.points.length)) = some (.run, 4, true, 1) := by decide
/-- V-PRJ-11e. -/
theorem test_ptLast :
    read (exec .prjPtLast { State.reset with pst := .run, k := 15, pv := true })
      (fun s => (s.pst, s.k, s.pv)) = some (.idle, 0, false) := by decide
/-- V-PRJ-11b. -/
theorem test_ptWait_held :
    read (exec (.prjPtWait true false 3)
        { State.reset with pst := .run, k := 3, pv := true, env := [Pins.idle] })
      (fun s => (s.k, s.pv)) = some (3, true) := by decide
/-- V-PRJ-11c and 11d. -/
theorem test_ptWait_draw :
    [false, true].map (fun d => read (exec (.prjPtWait false false 3)
        { State.reset with pst := .run, k := 3, env := [{ Pins.idle with draw := d }] })
      (fun s => s.pv)) = [some false, some true] := by decide
/-- V-DFR-C7 and R232. -/
theorem test_reset :
    read (exec (.reset true) { at_ stCol 17 with ov := true, pst := .run, errs := true, errc := 3 })
      (fun s => (s.st, s.idx, s.ov, s.pst, s.errs, s.errc)) =
      some (stS1, 0, false, .idle, false, 0) := by decide

/-! ## The step -/

/-- A state with the units alone and one cycle of inputs. -/
def alone (p : Pins) (s : State) : State := { s with wiring := .unitsAlone, env := [p] }

/-- V-DFR-C1: the completing byte waits while a frame is held. -/
theorem test_step_completing_byte_waits :
    read (step (alone { Pins.idle with inValid := true } { at_ stCol 59 with ov := true }))
      (fun s => (s.st, s.idx, s.ov, s.done)) = some (stCol, 59, true, false) := by decide
/-- V-DFR-C2: the old frame is taken and the new one completes at one edge. -/
theorem test_step_take_and_complete :
    read (step (alone { Pins.idle with inValid := true, foReady := true }
        { at_ stCol 59 with ov := true, buf := Vector.replicate 60 9 }))
      (fun s => (s.st, s.ov, s.done, s.ob[0], s.trace.handed.map (·[0]))) =
      some (stS1, true, true, 9, [0]) := by decide
/-- V-DFR-C3: with sclr = 1 no byte is accepted. -/
theorem test_step_sclr :
    read (step (alone { Pins.idle with sclr := true, inValid := true } (at_ stCol 17)))
      (fun s => (s.st, s.idx, s.done, s.trace.accepted)) = some (stS1, 0, false, [.sclr]) := by decide
/-- V-DFR-C5: a byte that completes nothing is accepted while a frame is held. -/
theorem test_step_store_while_held :
    read (step (alone { Pins.idle with inValid := true } { at_ stCol 5 with ov := true }))
      (fun s => (s.st, s.idx, s.ov)) = some (stCol, 6, true) := by decide
/-- P3, cycle 198: composed, the held frame goes to PRJ and the next completes into OB at one edge. -/
theorem test_step_accept_and_complete :
    read (step { at_ stCol 59 with
        ov := true
        ob := ((Vector.replicate 60 5).set 0 0x55).set 1 0xAA
        buf := Vector.replicate 60 9
        env := [{ Pins.idle with inValid := true, inData := 7, ptReady := true, draw := true }] })
      (fun s => (s.pst, s.pf[2], s.ob[2], s.ob[59], s.ov, s.done)) =
      some (.run, 5, 9, 7, true, true) := by decide +kernel
/-- P4, cycle 0: PRJ alone refuses a frame of length 59. -/
theorem test_step_malformed :
    read (step (alone { Pins.idle with fiValid := true, fiLen := 59, fiData := 0xAA55 } State.reset))
      (fun s => (s.pst, s.errp, s.errs, s.errc)) = some (.idle, true, true, 1) := by decide +kernel

/-! ## The arithmetic -/

/-- V-TRIG-3a and V-TRIG-9: 30 degrees. -/
theorem test_sincos_30 : sincos 30720 = (32768, 56756) := by decide +kernel
/-- V-TRIG-5a: a negative angle in the fourth quadrant. -/
theorem test_sincos_negative : sincos (-1024) = (-1144, 65526) := by decide +kernel
/-- V-TRIG-6c: the largest angle a frame can give. -/
theorem test_sincos_largest : sincos 1638385 = (22431, -61578) := by decide +kernel
/-- V-TRIG-9: the working values after 20 iterations. -/
theorem test_cordic_30 : cordic 30720 = ⟨3632374, 2097159, -1172⟩ := by decide +kernel
/-- V-TRIG-8: ties and their neighbours, with SCALE_DIV 1 and 3. -/
theorem test_rnd :
    [32767, 32768, -32768, -32769, -98304].map (rnd Params.default) = [0, 1, 0, -1, -1] ∧
      [98304, 98303, -98304].map (rnd { Params.default with scaleDiv := 3 }) = [1, 0, 0] := by decide +kernel

/-- The FRAME line of V-PRJ-7 (R94): 350 to 10 degrees, every distance 1000. -/
def frame350 : Frame :=
  frameLine 63360 41600 (Vector.replicate 16 1000) (Vector.replicate 16 0) (Vector.replicate 6 0)

/-- V-PRJ-7, k = 0. -/
theorem test_point_350 :
    point Params.default frame350 0 =
      ⟨0, false, BitVec.ofInt 18 (-174), BitVec.ofInt 18 (-985), 1000, BitVec.ofInt 22 358400,
        63360, 41600, BitVec.ofInt 17 22400, BitVec.ofInt 17 640⟩ := by decide +kernel
/-- V-PRJ-7, k = 15. -/
theorem test_point_350_last :
    ((point Params.default frame350 15).last, (point Params.default frame350 15).x.toInt,
      (point Params.default frame350 15).y.toInt) = (true, 152, -988) := by decide +kernel
/-- V-PRJ-2f: a negative span. -/
theorem test_span_negative :
    span (frameLine 65535 0 (Vector.replicate 16 0) (Vector.replicate 16 0) (Vector.replicate 6 0)) =
      -42495 := by decide +kernel
/-- V-PRJ-3g and V-PRJ-3h, both masks. -/
theorem test_distance_masks :
    [14, 12].map (fun m => (dist { Params.default with distMaskBits := m }
      (frameLine 0 0 ((Vector.replicate 16 0xFFFF).set 1 0xC123) (Vector.replicate 16 0xFF)
        (Vector.replicate 6 0)) 1, dist { Params.default with distMaskBits := m }
      (frameLine 0 0 (Vector.replicate 16 0xFFFF) (Vector.replicate 16 0xFF)
        (Vector.replicate 6 0)) 0)) = [(291, 16383), (291, 4095)] := by decide +kernel

/-! ## Witnesses: for every statement with hypotheses, a state and operands that meet them together; for a
statement of several clauses, one for each clause -/

/-- A frame that is all zero but for its header. -/
def headerFrame : Frame := ((Vector.replicate 60 0).set 0 0x55).set 1 0xAA

/-- s with one cycle of inputs, at the levels p. -/
def driven (p : Pins) (s : State) : State := { s with env := [p] }

/-- The recognizer after 59 bytes of a frame, with one cycle of inputs. -/
def atLast (p : Pins) : State := driven p { at_ stCol 59 with buf := headerFrame }

/-- A held frame, and one cycle of inputs. -/
def holding (p : Pins) : State := driven p { State.reset with ov := true, ob := headerFrame }

/-- Point k of an accepted frame, with one cycle of inputs. -/
def running (k : BitVec 4) (pv : Bool) (p : Pins) : State :=
  driven p { State.reset with pst := .run, k := k, pv := pv, pf := headerFrame }

/-- The invariant, as a check. -/
def invCheck (s : State) : Bool :=
  decide (s.tlen = 60 ∧ (s.st = stS1 ∨ s.st = stS2 ∨ s.st = stCol) ∧ (s.st = stS1 → s.idx = 0) ∧
    (s.st = stS2 → s.idx = 1 ∧ s.buf[0] = hdr0) ∧
    (s.st = stCol → 2 ≤ s.idx.toNat ∧ s.idx.toNat ≤ 59 ∧ s.buf[0] = hdr0 ∧ s.buf[1] = hdr1) ∧
    (s.ov = true → s.ob[0] = hdr0 ∧ s.ob[1] = hdr1) ∧ (s.pst = .idle → s.pv = false) ∧
    (s.pst = .run → s.pf[0] = hdr0 ∧ s.pf[1] = hdr1) ∧ (s.errp = true → s.errs = true) ∧
    (s.errs = true ↔ s.errc ≠ 0))

theorem inv_of_check {s : State} (h : invCheck s = true) : Inv s := by
  obtain ⟨a, b, c, d, e, f, g, i, j, k⟩ := of_decide_eq_true h
  exact ⟨⟨a, b, c, d, e, f⟩, ⟨g, i, j, k⟩⟩

/-- The step answers a next state. -/
def goesOn (r : Result) : Bool :=
  match r with
  | .next _ => true
  | _ => false

theorem next_of_goesOn {r : Result} (h : goesOn r = true) : ∃ t, r = .next t := by
  cases r with
  | next t => exact ⟨t, rfl⟩
  | fault e => cases h
  | refused e => cases h

theorem next_of_read {α : Type} {r : Result} {f : State → α} {a : α} (h : read r f = some a) :
    ∃ t, r = .next t ∧ f t = a := by
  cases r with
  | next t => exact ⟨t, rfl, Option.some.inj h⟩
  | fault e => cases h
  | refused e => cases h

/-! ### Encoding -/

theorem witness_DecodeInvertsEncode :
    (Instr.dfrColStore 58 0xFF).wf = true ∧ (Instr.dfrColStore 60 0).wf = true ∧
      (Instr.prjMalformed 59 0xAA 0x55).wf = true ∧ (Instr.prjPtNext 14).wf = true ∧
      (Instr.prjPtWait true false 15).wf = true := by decide
theorem witness_EncodeInvertsDecode :
    decode (.dfr 0xBB07) = .ok (.dfrColLast 7) ∧ decode (.ctl 2) = .ok (.reset false) := by decide

/-! ### The step -/

/-- The clause of a next state. -/
theorem witness_StepRunsDecodedOperation_next :
    admitParams (placeKey (.dfr 0x0055) State.reset) = .ok Build.default ∧
      (formedKeys (placeKey (.dfr 0x0055) State.reset)).filterMap decodeOk = [.dfrHdr1Match 0] ∧
      goesOn (exec (.dfrHdr1Match 0) (beginEdge (placeKey (.dfr 0x0055) State.reset))) = true := by
  decide
/-- The clause of a fault: ST = S2 with an index of 60. -/
theorem witness_StepRunsDecodedOperation_fault :
    admitParams (placeKey (.dfr 0x7CAA) State.reset) = .ok Build.default ∧
      (formedKeys (placeKey (.dfr 0x7CAA) State.reset)).filterMap decodeOk = [.dfrHdr2Match 60] ∧
      exec (.dfrHdr2Match 60) (beginEdge (placeKey (.dfr 0x7CAA) State.reset)) =
        .fault .noSuchEntry := ⟨by decide, by decide, rfl⟩
theorem witness_PlacedKeyRunsAlone : decode (.pfk 0x3CAA55) = .ok .prjAccept := by decide

/-! ### The operations -/

theorem witness_Hdr1SkipKeepsSeeking : (0xAA : Byte) ≠ 0x55 := by decide
theorem witness_Hdr2FailSkipReturnsToSeeking : (0 : Byte) ≠ 0xAA ∧ (0 : Byte) ≠ 0x55 := by decide
theorem witness_MalformedRecordsCauseOnly :
    checkCause 59 0x55 0xAA ≠ 0 ∧ checkCause 60 0x55 0xAB ≠ 0 := by decide
theorem witness_PtNextTransfersPoint : (14 : BitVec 4) ≠ 15 := by decide
theorem witness_PtWaitHoldsPoint : ¬(true = true ∧ false = true) := by decide
/-- The last index of the array. -/
theorem witness_Hdr2MatchStartsCollecting : (at_ stS2 59).idx.toNat < 60 := by decide
/-- A key's index other than 59; below the target length, at it, and past it. -/
theorem witness_ColStoreStoresBelowTarget :
    (58 : BitVec 6) ≠ 59 ∧
    ((at_ stCol 59).idx.toNat < 60 ∧ (at_ stCol 59).idx.toNat < (at_ stCol 59).tlen.toNat) ∧
      ((at_ stCol 60).tlen.toNat ≤ (at_ stCol 60).idx.toNat) ∧
      ((at_ stCol 63).tlen.toNat ≤ (at_ stCol 63).idx.toNat) := by decide
theorem witness_StoreOutsideArrayStops :
    60 ≤ ({ at_ stCol 60 with tlen := 61 } : State).idx.toNat ∧
      ({ at_ stCol 60 with tlen := 61 } : State).idx.toNat <
        ({ at_ stCol 60 with tlen := 61 } : State).tlen.toNat := by decide
/-- rst = 1 with sclr = 1 and a byte offered. -/
theorem witness_ResetEdgeGivesResetValues :
    (pins (atLast { Pins.idle with rst := true, sclr := true, inValid := true })).rst = true ∧
      admitParams (atLast { Pins.idle with rst := true, sclr := true, inValid := true }) =
        .ok Build.default := by decide
theorem witness_TargetLengthIsOnlySixty :
    (goesOn (exec (.dfrHdr2Match 1) { at_ stS2 1 with tlen := 7 }) = true ∧
        (Instr.dfrHdr2Match 1).mnemonic = "DFR_HDR2_MATCH") ∧
      (goesOn (exec (.reset false) { at_ stS2 1 with tlen := 7 }) = true ∧
        (Instr.reset false).mnemonic = "RESET") ∧
      goesOn (exec (.dfrColStore 3 0) { at_ stCol 3 with tlen := 7 }) = true ∧
        (Instr.dfrColStore 3 0).mnemonic ≠ "DFR_HDR2_MATCH" ∧
        (Instr.dfrColStore 3 0).mnemonic ≠ "RESET" := by decide
/-- An operation that completes a frame, and one that does not. -/
theorem witness_SelectedOperationIsDfrStep :
    (DfrInv (atLast Pins.idle) ∧ decode (.dfr (dfrKeyOf stCol 59 7)) = .ok (.dfrColLast 7)) ∧
      (DfrInv (at_ stS1 0) ∧ decode (.dfr (dfrKeyOf stS1 0 0x55)) = .ok (.dfrHdr1Match 0)) :=
  ⟨⟨(inv_of_check (by decide)).dfr, by decide⟩, ⟨(inv_of_check (by decide)).dfr, by decide⟩⟩

/-! ### The arithmetic -/

theorem witness_FieldsAreLittleEndian : 58 + 1 < 60 ∧ 8 + 3 * (15 : BitVec 4).toNat + 1 < 60 := by
  decide
theorem witness_FrameBusCarriesBytesInOrder : (holding Pins.idle).ov = true ∧ 59 < 60 ∧ 7 < 8 := by
  decide
/-- The build with the 12-bit mask. -/
def build12 : Build := ⟨{ Params.default with distMaskBits := 12 }, by decide⟩
theorem witness_DistanceIsMasked :
    build12.params.distMaskBits = 12 ∧ Build.default.params.distMaskBits = 14 := by decide
theorem witness_ZeroDistancesGiveOrigin :
    ∀ k : BitVec 4, dist Build.default.params headerFrame k = 0 := by decide +kernel
theorem witness_SpanAcrossZeroIsTwentyDegrees :
    firstRaw frame350 = 63360 ∧ lastRaw frame350 = 41600 := by decide +kernel
/-- A distance at the top of the mask. -/
theorem witness_FrameLineRoundTrip :
    ((Vector.replicate 16 4095 : Vector (BitVec 16) 16)[(15 : BitVec 4).toNat]).toNat <
      2 ^ build12.params.distMaskBits := by decide +kernel
/-- The two frames differ in an uninterpreted byte. -/
theorem witness_UninterpretedBytesAreIgnored :
    (headerFrame[6] = (headerFrame.set 58 9)[6] ∧ headerFrame[7] = (headerFrame.set 58 9)[7] ∧
      headerFrame[56] = (headerFrame.set 58 9)[56] ∧ headerFrame[57] = (headerFrame.set 58 9)[57] ∧
      ∀ k : BitVec 4, (sampleWord headerFrame k).toNat % 2 ^ build12.params.distMaskBits =
        (sampleWord (headerFrame.set 58 9) k).toNat % 2 ^ build12.params.distMaskBits) ∧
      headerFrame ≠ headerFrame.set 58 9 := by decide +kernel

/-! ### The machine -/

/-- An edge at which PRJ takes the held frame. -/
theorem witness_StepIsBothCycleSteps :
    Inv (holding Pins.idle) ∧ ∃ t, step (holding Pins.idle) = .next t :=
  ⟨inv_of_check (by decide), next_of_goesOn (by decide +kernel)⟩
/-- The byte that completes a frame. -/
theorem witness_StepKeepsInv :
    Inv (atLast { Pins.idle with inValid := true }) ∧
      ∃ t, step (atLast { Pins.idle with inValid := true }) = .next t :=
  ⟨inv_of_check (by decide), next_of_goesOn (by decide)⟩
theorem witness_StepCompletesUnderInv :
    Inv (atLast { Pins.idle with inValid := true }) ∧
      admitParams (atLast { Pins.idle with inValid := true }) = .ok Build.default :=
  ⟨inv_of_check (by decide), by decide⟩
/-- An offered point that is not taken. -/
theorem witness_OffersAreStable_point :
    Inv (running 15 true Pins.idle) ∧ (pins (running 15 true Pins.idle)).rst = false ∧
      (∃ t, step (running 15 true Pins.idle) = .next t) ∧
      ptValid (running 15 true Pins.idle) = true ∧
      (pins (running 15 true Pins.idle)).ptReady = false :=
  ⟨inv_of_check (by decide), by decide, next_of_goesOn (by decide), by decide, by decide⟩
/-- A held frame that PRJ is too busy to take. -/
theorem witness_OffersAreStable_frame :
    Inv { running 0 false Pins.idle with ov := true, ob := headerFrame } ∧
      (pins { running 0 false Pins.idle with ov := true, ob := headerFrame }).rst = false ∧
      (∃ t, step { running 0 false Pins.idle with ov := true, ob := headerFrame } = .next t) ∧
      foReady { running 0 false Pins.idle with ov := true, ob := headerFrame } = false :=
  ⟨inv_of_check (by decide), by decide, next_of_goesOn (by decide), by decide⟩
/-- Both sides of the equivalence hold. -/
theorem witness_FrameDoneMarksCompletion :
    Inv (atLast { Pins.idle with inValid := true }) ∧
      ∃ t, step (atLast { Pins.idle with inValid := true }) = .next t ∧ t.done = true :=
  ⟨inv_of_check (by decide), next_of_read (by decide)⟩
/-- A composed edge at which PRJ accepts a frame: the held frame moves, and the tap is valid. -/
theorem witness_ComposedNeverMalformed :
    Inv (holding Pins.idle) ∧ (holding Pins.idle).wiring = .composed ∧ ErrorFree (holding Pins.idle) ∧
      (∃ t, step (holding Pins.idle) = .next t ∧ (t.pst, t.pf) = (.run, headerFrame)) ∧
      accf (holding Pins.idle) = true ∧ monValid (holding Pins.idle) = true :=
  ⟨inv_of_check (by decide), rfl, ⟨rfl, rfl, rfl⟩, next_of_read (by decide +kernel), by decide,
    by decide⟩
/-- The first byte of a frame after reset. -/
theorem witness_StepKeepsRecord :
    Inv (driven { Pins.idle with inValid := true, inData := 0x55 } State.reset) ∧
      RecordInv (driven { Pins.idle with inValid := true, inData := 0x55 } State.reset) ∧
      ComposedRecord (driven { Pins.idle with inValid := true, inData := 0x55 } State.reset) ∧
      ∃ t, step (driven { Pins.idle with inValid := true, inData := 0x55 } State.reset) = .next t :=
  ⟨inv_of_check (by decide), ⟨⟨State.reset.buf, rfl⟩, rfl, rfl⟩, fun _ => rfl,
    next_of_goesOn (by decide)⟩
/-- Two cycles from reset, after which both units are idle. -/
theorem witness_EndToEndPoints :
    ∃ t, core.run 2 { State.reset with
        env := [{ Pins.idle with inValid := true, inData := 0x55 }, { Pins.idle with sclr := true }]
        build := build12 } = .next t ∧ (t.pst, t.ov, t.trace.accepted) =
      (.idle, false, [.byte 0x55, .sclr]) := next_of_read (by decide)
theorem witness_NoHeaderByteNoFrame : DfrEvent.byte 0x55 ∉ [.byte 0x54, .sclr, .byte 0xAA] := by decide
theorem witness_BackToBackFrames :
    headerFrame[0] = 0x55 ∧ headerFrame[1] = 0xAA ∧ (headerFrame.set 2 0x55)[0] = 0x55 ∧
      (headerFrame.set 2 0x55)[1] = 0xAA := by decide
/-- A byte that completes a frame, after a header byte and a soft clear that belong to no frame. -/
theorem witness_BackToBackFrames_last :
    (dfrStep (dfrRun (resetDfrRegs (Vector.replicate 60 9))
      ([.byte 0x55, .sclr] ++ (headerFrame.toList.take 59).map .byte)).1 0).2 = true := by
  decide +kernel
/-- At both sides of the position where a byte would complete a frame. -/
theorem witness_OutputsHideRecognizer :
    completes { at_ stCol 58 with st := stS2, idx := 1, tlen := 60, buf := headerFrame } =
        completes (at_ stCol 58) ∧
      completes { at_ stCol 59 with st := stCol, idx := 4, tlen := 5, buf := headerFrame } =
        completes (at_ stCol 59) := by decide
/-- DFR before the last byte but one, with a held frame that a busy PRJ does not take. -/
def storingWhileHeld : State :=
  { atLast { Pins.idle with inValid := true } with
    idx := 58, ov := true, ob := headerFrame, pst := .run, pf := headerFrame }

/-- The units alone, with a completing byte that waits for the held frame. -/
def completingWhileHeld : State :=
  alone { Pins.idle with inValid := true } { at_ stCol 59 with ov := true }

/-- A byte that is accepted while a frame is held, at the last index but one (V-DFR-C5's case). -/
theorem witness_UnacceptedByteIsNotEvaluated_accepted :
    Inv storingWhileHeld ∧ (pins storingWhileHeld).inValid = true ∧
      (outputs storingWhileHeld).inReady = true ∧
      ∃ t, step storingWhileHeld = .next t :=
  ⟨inv_of_check (by decide), by decide, by decide +kernel, next_of_goesOn (by decide +kernel)⟩
/-- A completing byte that is offered and waits. -/
theorem witness_UnacceptedByteIsNotEvaluated :
    (pins completingWhileHeld).rst = false ∧ (pins completingWhileHeld).sclr = false ∧
      ¬((pins completingWhileHeld).inValid = true ∧ (outputs completingWhileHeld).inReady = true) ∧
      ∃ t, step completingWhileHeld = .next t :=
  ⟨by decide, by decide, by decide +kernel, next_of_goesOn (by decide)⟩
/-- A legal new setting with rst = 0, and an illegal one with rst = 1. -/
theorem witness_ParameterSettingsRefused :
    ((pins (driven { Pins.idle with params := some build12.params } State.reset)).params =
        some build12.params ∧
      build12.params ≠ (driven { Pins.idle with params := some build12.params }
        State.reset).build.params ∧
      (pins (driven { Pins.idle with params := some build12.params } State.reset)).rst = false) ∧
    ((pins (driven { Pins.idle with
          rst := true, params := some { Params.default with scaleDiv := 0 } } State.reset)).params =
        some { Params.default with scaleDiv := 0 } ∧
      { Params.default with scaleDiv := 0 } ≠ State.reset.build.params ∧
      legalParams { Params.default with scaleDiv := 0 } = false) ∧
    ({ Params.default with distMaskBits := 13 } : Params).distMaskBits ≠ 14 ∧
      ({ Params.default with distMaskBits := 13 } : Params).distMaskBits ≠ 12 := by decide
/-- A reset edge, and a cycle after it with rst = 0 and sclr = 0. -/
theorem witness_OutputsAroundReset :
    (pins { State.reset with env := [{ Pins.idle with rst := true }, Pins.idle] }).rst = true ∧
      ∃ t, step { State.reset with env := [{ Pins.idle with rst := true }, Pins.idle] } = .next t ∧
        ((pins t).rst, (pins t).sclr) = (false, false) :=
  ⟨by decide, next_of_read (by decide)⟩
/-- The draw comes in every one of PT_LAT_MAX cycles. -/
theorem witness_FairDrawOffersPoint :
    ∃ s : State, Inv s ∧ s.pst = .run ∧ s.pv = false ∧ Config.ptLatMax ≤ s.env.length ∧
      (∀ p ∈ s.env.take Config.ptLatMax, plainCycle p) ∧ drawWithin Config.ptLatMax s.env := by
  refine ⟨{ running 15 false Pins.idle with
    env := List.replicate Config.ptLatMax { Pins.idle with draw := true } }, ?_, rfl, rfl, ?_, ?_, ?_⟩
  · exact inv_of_check (by decide)
  · simp
  · intro p hp
    rw [List.eq_of_mem_replicate (List.mem_of_mem_take hp)]
    exact ⟨rfl, rfl⟩
  · exact ⟨{ Pins.idle with draw := true }, by simp [Config.ptLatMax], rfl⟩
/-- The last two points. -/
theorem witness_ReadyConsumerTakesAllPoints :
    ∃ s : State, Inv s ∧ s.pst = .run ∧ s.pv = true ∧ 16 - s.k.toNat ≤ s.env.length ∧
      ∀ p ∈ s.env.take (16 - s.k.toNat), plainCycle p ∧ p.ptReady = true ∧ p.draw = true := by
  refine ⟨{ running 14 true Pins.idle with
    env := List.replicate 2 { Pins.idle with ptReady := true, draw := true } }, ?_, rfl, rfl, ?_, ?_⟩
  · exact inv_of_check (by decide)
  · decide
  · intro p hp
    rw [List.eq_of_mem_replicate (List.mem_of_mem_take hp)]
    exact ⟨⟨rfl, rfl⟩, rfl, rfl⟩

end Sys2Proof.Tests
end

section
/-! What the two storing operations and the reset edge can do, once each, and the statements of
10_state.md R27 and R44. -/

namespace Sys2Proof.Laws

open Sys2Proof.Machine

variable {s t : State}

/-- DFR_HDR2_MATCH answers next exactly where IDX addresses an entry of BUF (R103, R60). -/
theorem exec_dfrHdr2Match_eq_next {idx : BitVec 6} :
    exec (.dfrHdr2Match idx) s = .next t ↔
      ∃ h : s.idx.toNat < 60, t = clearDone { noteByte hdr1 s with
        buf := s.buf.set s.idx.toNat hdr1 h, idx := s.idx + 1, tlen := frameLen6, st := stCol } := by
  constructor
  · intro hx
    obtain ⟨u, hu, ht⟩ := andThen_eq_next.1 hx
    obtain ⟨h, rfl⟩ := storeBuf_eq_next.1 hu
    cases ht
    exact ⟨h, rfl⟩
  · rintro ⟨h, rfl⟩
    exact andThen_eq_next.2 ⟨_, storeBuf_of_lt h, rfl⟩

/-- DFR_COL_STORE stores below TLEN, where IDX addresses an entry of BUF, and at or above TLEN only
notes the byte (R106, R60). -/
theorem exec_dfrColStore_eq_next {idx : BitVec 6} {b : Byte} :
    exec (.dfrColStore idx b) s = .next t ↔
      (s.idx.toNat < s.tlen.toNat ∧ ∃ h : s.idx.toNat < 60, t = clearDone { noteByte b s with
        buf := s.buf.set s.idx.toNat b h, idx := s.idx + 1 }) ∨
      (s.tlen.toNat ≤ s.idx.toNat ∧ t = clearDone (noteByte b s)) := by
  change execDfrColStore idx b s = .next t ↔ _
  by_cases hlt : s.idx.toNat < s.tlen.toNat
  · simp only [execDfrColStore, hlt, if_true, andThen_eq_next, storeBuf_eq_next, true_and,
      Nat.not_le.2 hlt, false_and, or_false]
    constructor
    · rintro ⟨u, ⟨h, rfl⟩, ht⟩
      cases ht
      exact ⟨h, rfl⟩
    · rintro ⟨h, rfl⟩
      exact ⟨_, ⟨h, rfl⟩, rfl⟩
  · simp only [execDfrColStore, hlt, if_false, false_and, false_or, Nat.not_lt.1 hlt, true_and,
      Host.Outcome.next.injEq, eq_comm]

/-- DFR_RSV_ST3 always answers next: the byte is processed as in S1 (R108). -/
theorem exec_dfrRsvSt3 (idx : BitVec 6) (b : Byte) (s : State) :
    exec (.dfrRsvSt3 idx b) s =
      .next (if b = hdr0 then seekHit b (toSeek (noteByte b s))
        else seekMiss (toSeek (noteByte b s))) :=
  (apply_ite Host.Outcome.next _ _ _).symm

/-- The operations that write TLEN (R27). -/
def writesTlen : Instr → Bool
  | .dfrHdr2Match _ => true
  | .reset _ => true
  | _ => false

/-- The operations that write TLEN, by their rows' names. -/
theorem writesTlen_iff (i : Instr) :
    writesTlen i = true ↔ i.mnemonic = "DFR_HDR2_MATCH" ∨ i.mnemonic = "RESET" := by
  cases i <;> simp [writesTlen, Instr.mnemonic]

/-- TLEN after an operation: 60 where the operation writes it, else what it was. -/
theorem tlen_of_exec {i : Instr} (hx : exec i s = .next t) :
    t.tlen = if writesTlen i then 60 else s.tlen := by
  cases i with
  | dfrHdr2Match idx =>
    obtain ⟨_, rfl⟩ := exec_dfrHdr2Match_eq_next.1 hx
    rfl
  | dfrColStore idx b =>
    obtain ⟨_, _, rfl⟩ | ⟨_, rfl⟩ := exec_dfrColStore_eq_next.1 hx <;> rfl
  | dfrRsvSt3 idx b =>
    cases (exec_dfrRsvSt3 idx b s).symm.trans hx
    split <;> rfl
  | dfrHdr1Match | dfrHdr1Skip | dfrHdr2FailResync | dfrHdr2FailSkip | dfrColLast | prjAccept
  | prjMalformed | prjPtLast | prjPtNext | prjPtWait | reset | dfrSclr | dfrFoTake =>
    cases hx
    simp [writesTlen]

/-- Settles O27: TLEN after each operation (`tlen_of_exec`), with the two writers known by their rows'
names. -/
theorem targetLengthIsOnlySixty : Obligations.TargetLengthIsOnlySixty := by
  intro i s t hx
  have htlen := tlen_of_exec hx
  constructor
  · intro hw
    rw [htlen, if_pos ((writesTlen_iff i).2 hw)]
  · intro hw
    rw [htlen, if_neg fun h => not_or.2 hw ((writesTlen_iff i).1 h)]

/-- A control key with rst = 1 selects RESET, whatever sclr is (R89). -/
theorem decode_ctl_rst (sclr : Bool) : decode (.ctl (pairKeyOf true sclr)) = .ok (.reset sclr) := by
  cases sclr <;> rfl

/-- An edge with rst = 1 runs RESET alone (R217). -/
theorem selected_of_rst (hr : (pins s).rst = true) : selected s = [.reset (pins s).sclr] := by
  simp [selected, formedKeys_of_rst hr, decodeOk, decode_ctl_rst]

/-- The next state of an edge with rst = 1 whose parameter setting is admitted. -/
theorem step_of_rst {b : Build} (hr : (pins s).rst = true) (hb : admitParams s = .ok b) :
    step s = .next (endEdge b (resetRegisters (beginEdge s))) :=
  step_eq_next.2 ⟨b, _, hb, by rw [selected_of_rst hr]; rfl, rfl⟩

/-- Settles O25: the edge is RESET (`step_of_rst`), and each register is the one RESET leaves. -/
theorem resetEdgeGivesResetValues : Obligations.ResetEdgeGivesResetValues := by
  intro s b hr hb
  exact ⟨_, step_of_rst hr hb, by simp⟩

/-- Settles O26: `State.reset` is closed, and each of its registers stands in it as the table of R44
writes it. -/
theorem resetStateHoldsStatedValues : Obligations.ResetStateHoldsStatedValues :=
  ⟨rfl, rfl, rfl, rfl, rfl, rfl, rfl, rfl, rfl, rfl, rfl⟩

end Sys2Proof.Laws
end

section
/-! The byte order of a frame's 16-bit fields and of a frame bus, and the statements of 20_memory.md R63
and R64. -/

namespace Sys2Proof.Laws

open Sys2Proof.Machine

/-- The value of a field: the byte at the lower index is the low byte (R63). -/
theorem le16_toNat (f : Frame) (i : Nat) (h : i + 1 < 60) :
    (le16 f i h).toNat =
      (entry f i (Nat.lt_of_succ_lt h)).toNat + 256 * (entry f (i + 1) h).toNat := by
  have hlow := (entry f i (Nat.lt_of_succ_lt h)).isLt
  rw [le16, BitVec.toNat_append, ← Nat.shiftLeft_add_eq_or_of_lt hlow, Nat.shiftLeft_eq]
  omega

/-- Settles O30: `le16_toNat` at every index, of which the named fields of R81 are instances. -/
theorem fieldsAreLittleEndian : Obligations.FieldsAreLittleEndian :=
  ⟨le16_toNat, fun f => ⟨le16_toNat f 6 (by decide), le16_toNat f 56 (by decide)⟩,
    fun f k h => le16_toNat f (8 + 3 * k.toNat) h⟩

/-- While OV = 1, fo_data packs the held frame (R114). -/
theorem foData_of_ov {s : State} (hov : s.ov = true) : foData s = pack s.ob := if_pos hov

/-- Two bus values with the same bytes are the same: the 60 bytes cover the 480 bits. -/
theorem bus_ext {v w : BitVec 480} (h : ∀ j < 60, busByte v j = busByte w j) : v = w := by
  refine BitVec.eq_of_getLsbD_eq fun i hi => ?_
  have hm : i % 8 < 8 := Nat.mod_lt i (by decide)
  have hbyte := congrArg (·.getLsbD (i % 8)) (h (i / 8) (by omega))
  simpa only [busByte_bit _ _ _ hm, Nat.div_add_mod] using hbyte

/-- Byte j of a packed frame is the frame's byte j. -/
theorem busByte_pack (f : Frame) (j : Nat) (h : j < 60) : busByte (pack f) j = entry f j h :=
  BitVec.eq_of_getLsbD_eq fun m hm => (busByte_bit _ j m hm).trans (pack_bit f j m h hm)

/-- A frame survives packing and unpacking. -/
theorem unpack_pack (f : Frame) : unpack (pack f) = f :=
  Vector.ext fun j h => (unpack_entry (pack f) j h).trans (busByte_pack f j h)

/-- A bus value survives unpacking and packing. -/
theorem pack_unpack (w : BitVec 480) : pack (unpack w) = w :=
  bus_ext fun j h => (busByte_pack (unpack w) j h).trans (unpack_entry w j h)

/-- Settles O31: fo_data and mon_data are one packed frame (`foData_of_ov`), whose bits `pack_bit` gives;
unpacking reads them back (`busByte_bit`), so that the two are inverse. -/
theorem frameBusCarriesBytesInOrder : Obligations.FrameBusCarriesBytesInOrder := by
  refine ⟨fun s j h m hov hm => ?_, fun w j h m hm => ?_, unpack_pack, pack_unpack⟩
  · have hbit : (foData s).getLsbD (8 * j + m) = (entry s.ob j h).getLsbD m := by
      rw [foData_of_ov hov, pack_bit s.ob j m h hm]
    exact ⟨hbit, hbit⟩
  · rw [unpack_entry, busByte_bit w j m hm]

end Sys2Proof.Laws
end

section
/-! The operation of a DFR key over its fields, and the statement of 30_encoding.md R85. -/

namespace Sys2Proof.Laws

open Sys2Proof.Machine

/-- The operation that the condition column of R85 names for ST, IDX and a byte. -/
def dfrOperation (st : BitVec 2) (idx : BitVec 6) (b : Byte) : Instr :=
  if st = stS1 then (if b = 0x55 then .dfrHdr1Match idx else .dfrHdr1Skip idx b)
  else if st = stS2 then
    (if b = 0xAA then .dfrHdr2Match idx
      else if b = 0x55 then .dfrHdr2FailResync idx
      else .dfrHdr2FailSkip idx b)
  else if st = stCol then (if idx = 59 then .dfrColLast b else .dfrColStore idx b)
  else .dfrRsvSt3 idx b

/-- ST holds one of its four codes (R25). -/
theorem st_cases (st : BitVec 2) : st = stS1 ∨ st = stS2 ∨ st = stCol ∨ st = stRsv := by
  revert st
  decide

section
variable (st : BitVec 2) (idx : BitVec 6) (b : Byte)

/-- The eight rows of R85, tried in order of priority, come to the operation of the condition column,
whatever is read from it; no key passes all eight. -/
theorem dfrRows_eq_dfrOperation {α : Type} (f : Instr → α) (noRow : α) :
    (if st = 0 ∧ b = 0x55 then f (.dfrHdr1Match idx) else if st = 0 then f (.dfrHdr1Skip idx b)
      else if st = 1 ∧ b = 0xAA then f (.dfrHdr2Match idx)
      else if st = 1 ∧ b = 0x55 then f (.dfrHdr2FailResync idx)
      else if st = 1 then f (.dfrHdr2FailSkip idx b)
      else if st = 2 ∧ idx = 59 then f (.dfrColLast b) else if st = 2 then f (.dfrColStore idx b)
      else if st = 3 then f (.dfrRsvSt3 idx b) else noRow) = f (dfrOperation st idx b) := by
  obtain rfl | rfl | rfl | rfl := st_cases st
  · by_cases h55 : b = 0x55#8 <;> simp [dfrOperation, h55]
  · by_cases hAA : b = 0xAA#8
    · simp [dfrOperation, hAA]
    · by_cases h55 : b = 0x55#8 <;> simp [dfrOperation, hAA, h55]
  · by_cases h59 : idx = 59#6 <;> simp [dfrOperation, h59]
  · simp [dfrOperation]

/-- The decoder answers the operation of the condition column. -/
theorem decode_dfrKeyOf : decode (.dfr (dfrKeyOf st idx b)) = .ok (dfrOperation st idx b) := by
  simp only [decode, decodeDfr, rowHdr1Match_hits, rowHdr1Skip_hits, rowHdr2Match_hits,
    rowHdr2FailResync_hits, rowHdr2FailSkip_hits, rowColLast_hits, rowColStore_hits, rowRsvSt3_hits,
    keyIdx_dfrKeyOf, keyByte_dfrKeyOf]
  exact dfrRows_eq_dfrOperation st idx b Except.ok (.error Reject.noOperation)

/-- The first row that a key hits is the row of that operation. -/
theorem tableMnemonic_dfrKeyOf :
    tableMnemonic (.dfr (dfrKeyOf st idx b)) = some (dfrOperation st idx b).mnemonic :=
  (dfrTable_firstHit st idx b).trans
    (dfrRows_eq_dfrOperation st idx b (fun i => some i.mnemonic) none)

end

/-- Every 16-bit word is the key of its three fields (R84). -/
theorem dfrKeyOf_fields (w : BitVec 16) :
    dfrKeyOf (w.extractLsb' 14 2) (keyIdx w) (keyByte w) = w := by
  rw [dfrKeyOf, keyIdx, keyByte,
    BitVec.extractLsb'_append_extractLsb'_eq_extractLsb' (start₁ := 8) (start₂ := 14) rfl,
    BitVec.extractLsb'_append_extractLsb'_eq_extractLsb' (start₁ := 0) (start₂ := 8) rfl,
    BitVec.extractLsb'_eq_self]

/-- Settles O3: the rows are closed values; a key's operation is `decode_dfrKeyOf`; and a 16-bit word, being
the key of its fields, decodes to the operation of the first row it hits (`tableMnemonic_dfrKeyOf`). -/
theorem dfrMapIsTheTable : Obligations.DfrMapIsTheTable := by
  refine ⟨rfl, decode_dfrKeyOf, fun w => ?_⟩
  rw [← dfrKeyOf_fields w]
  exact ⟨_, decode_dfrKeyOf .., tableMnemonic_dfrKeyOf ..⟩

end Sys2Proof.Laws
end

section
/-! What every byte operation of DFR leaves unchanged, and the statements of 40_deframer.md R101 to R108:
one operation each. -/

namespace Sys2Proof.Laws

open Sys2Proof.Machine Sys2Proof.Safety

variable {s t : State}

/-- The byte that an operation of format DFR was selected with; the other operations take none (R84). -/
def acceptedByte : Instr → Option Byte
  | .dfrHdr1Match _ => some hdr0
  | .dfrHdr1Skip _ b => some b
  | .dfrHdr2Match _ => some hdr1
  | .dfrHdr2FailResync _ => some hdr0
  | .dfrHdr2FailSkip _ b => some b
  | .dfrColLast b => some b
  | .dfrColStore _ b => some b
  | .dfrRsvSt3 _ b => some b
  | _ => none

/-- The operation of a key was selected with the key's byte. -/
@[simp] theorem acceptedByte_dfrOperation (st : BitVec 2) (idx : BitVec 6) (b : Byte) :
    acceptedByte (dfrOperation st idx b) = some b := by
  rw [dfrOperation]
  split_ifs <;> simp_all [acceptedByte]

/-- A byte operation notes its byte, and leaves PRJ and the surroundings as they were; but for
DFR_COL_LAST it ends with DONE = 0, the held frame kept, and nothing else noted. -/
theorem frame_of_acceptedByte {i : Instr} {b : Byte} (hx : exec i s = .next t)
    (hi : acceptedByte i = some b) :
    SamePrj s t ∧ SameSurroundings s t ∧ t.trace.accepted = s.trace.accepted ++ [.byte b] ∧
      (i ≠ .dfrColLast b → t.done = false ∧ SameHeld s t ∧
        t.trace = { s.trace with accepted := s.trace.accepted ++ [.byte b] }) := by
  cases i with
  | dfrHdr2Match idx =>
    obtain ⟨_, rfl⟩ := exec_dfrHdr2Match_eq_next.1 hx
    cases hi
    simp [SamePrj, SameSurroundings, SameHeld]
  | dfrColStore idx c =>
    obtain ⟨_, _, rfl⟩ | ⟨_, rfl⟩ := exec_dfrColStore_eq_next.1 hx <;> cases hi <;>
      simp [SamePrj, SameSurroundings, SameHeld]
  | dfrRsvSt3 idx c =>
    cases (exec_dfrRsvSt3 idx c s).symm.trans hx
    cases hi
    split <;> simp [SamePrj, SameSurroundings, SameHeld]
  | dfrHdr1Match | dfrHdr1Skip | dfrHdr2FailResync | dfrHdr2FailSkip | dfrColLast =>
    cases hx
    cases hi
    simp [SamePrj, SameSurroundings, SameHeld]
  | prjAccept | prjMalformed | prjPtLast | prjPtNext | prjPtWait | reset | dfrSclr | dfrFoTake =>
    cases hi

/-- The last four clauses of a statement about a byte operation that completes no frame. -/
theorem unchanged_of_acceptedByte {i : Instr} {b : Byte} (hx : exec i s = .next t)
    (hi : acceptedByte i = some b) (hlast : i ≠ .dfrColLast b) :
    SameHeld s t ∧ SamePrj s t ∧ SameSurroundings s t ∧
      t.trace = { s.trace with accepted := s.trace.accepted ++ [.byte b] } := by
  obtain ⟨hprj, hsurr, -, hrest⟩ := frame_of_acceptedByte hx hi
  obtain ⟨-, hheld, htrace⟩ := hrest hlast
  exact ⟨hheld, hprj, hsurr, htrace⟩

/-- A stored byte is read back. -/
theorem entry_set_self (f : Frame) (i : Nat) (b : Byte) (h : i < 60) : entry (f.set i b h) i h = b :=
  (entry_set f i i b h h).trans (if_pos rfl)

/-- A store changes no other entry. -/
theorem agreeExcept_set {f : Frame} {i : Nat} {b : Byte} (h : i < 60) :
    AgreeExcept i f (f.set i b h) :=
  fun j hj hne => (entry_set f i j b h hj).trans (if_neg hne.symm)

/-- Where IDX addresses an entry, its increment does not wrap. -/
theorem idx_add_one_toNat {i : BitVec 6} (h : i.toNat < 60) : (i + 1).toNat = i.toNat + 1 :=
  BitVec.toNat_add_of_lt (y := 1) (Nat.succ_lt_succ (h.trans (by decide)))

/-- Settles O8: SeekHeader1 on the header byte (`seekHit`). -/
theorem hdr1MatchStartsFrame : Obligations.Hdr1MatchStartsFrame := by
  intro idx s
  exact ⟨decode_dfrKeyOf .., _, rfl, rfl, rfl, rfl, rfl, entry_set_self .., agreeExcept_set (by decide),
    unchanged_of_acceptedByte (i := .dfrHdr1Match idx) rfl rfl nofun⟩

/-- Settles O9: SeekHeader1 on any other byte (`seekMiss`). -/
theorem hdr1SkipKeepsSeeking : Obligations.Hdr1SkipKeepsSeeking := by
  intro idx b s
  refine ⟨fun hb => ?_, _, rfl, rfl, rfl, rfl, rfl, rfl,
    unchanged_of_acceptedByte (i := .dfrHdr1Skip idx b) rfl rfl nofun⟩
  rw [decode_dfrKeyOf, dfrOperation, if_pos rfl, if_neg hb]

/-- Settles O10: the store of 0xAA in range (`exec_dfrHdr2Match_eq_next`). -/
theorem hdr2MatchStartsCollecting : Obligations.Hdr2MatchStartsCollecting := by
  intro idx s hidx
  have hx := exec_dfrHdr2Match_eq_next (idx := idx).2 ⟨hidx, rfl⟩
  exact ⟨decode_dfrKeyOf .., _, hx, rfl, idx_add_one_toNat hidx, rfl, rfl,
    fun _ => entry_set_self .., agreeExcept_set hidx, unchanged_of_acceptedByte hx rfl nofun⟩

/-- Settles O11: the byte is processed again in SeekHeader1, where it matches. -/
theorem hdr2FailResyncRestartsFrame : Obligations.Hdr2FailResyncRestartsFrame := by
  intro idx s
  exact ⟨decode_dfrKeyOf .., _, rfl, rfl, rfl, rfl, rfl, entry_set_self .., agreeExcept_set (by decide),
    unchanged_of_acceptedByte (i := .dfrHdr2FailResync idx) rfl rfl nofun⟩

/-- Settles O12: the byte is processed again in SeekHeader1, where it is skipped. -/
theorem hdr2FailSkipReturnsToSeeking : Obligations.Hdr2FailSkipReturnsToSeeking := by
  intro idx b s
  refine ⟨fun hAA h55 => ?_, _, rfl, rfl, rfl, rfl, rfl, rfl,
    unchanged_of_acceptedByte (i := .dfrHdr2FailSkip idx b) rfl rfl nofun⟩
  rw [decode_dfrKeyOf, dfrOperation, if_neg (by decide), if_pos rfl, if_neg hAA, if_neg h55]

/-- Settles O13: the two cases of `exec_dfrColStore_eq_next`, IDX below TLEN and not. -/
theorem colStoreStoresBelowTarget : Obligations.ColStoreStoresBelowTarget := by
  intro idx b s hrange
  refine ⟨fun h59 => ?_, ?_⟩
  · rw [decode_dfrKeyOf, dfrOperation, if_neg (by decide), if_neg (by decide), if_pos rfl, if_neg h59]
  · by_cases hlt : s.idx.toNat < s.tlen.toNat
    · have h60 : s.idx.toNat < 60 := hrange.resolve_right (Nat.not_le.2 hlt)
      have hx := exec_dfrColStore_eq_next (idx := idx) (b := b).2 (.inl ⟨hlt, h60, rfl⟩)
      refine ⟨_, hx, rfl, rfl, rfl, ?_, unchanged_of_acceptedByte hx rfl nofun⟩
      rw [if_pos hlt]
      exact ⟨idx_add_one_toNat h60, fun _ => entry_set_self .., agreeExcept_set h60⟩
    · have hx := exec_dfrColStore_eq_next (idx := idx) (b := b).2 (.inr ⟨Nat.not_lt.1 hlt, rfl⟩)
      refine ⟨_, hx, rfl, rfl, rfl, ?_, unchanged_of_acceptedByte hx rfl nofun⟩
      rw [if_neg hlt]
      exact ⟨rfl, rfl⟩

/-- Settles O15: the completion (`completeFrame`), with the frame lemma of the byte operations. -/
theorem colLastCompletesFrame : Obligations.ColLastCompletesFrame := by
  intro b s
  have hx : exec (.dfrColLast b) s = .next (completeFrame b (noteByte b s)) := rfl
  obtain ⟨hprj, hsurr, -⟩ := frame_of_acceptedByte hx rfl
  exact ⟨decode_dfrKeyOf .., _, hx, rfl, rfl, rfl, rfl, rfl, entry_set_self .., agreeExcept_set (by decide),
    rfl, hprj, hsurr, rfl⟩

/-- Settles O16: the byte is processed as in S1, by whether it is the header byte (`exec_dfrRsvSt3`). -/
theorem rsvSt3ActsAsSeekHeader1 : Obligations.RsvSt3ActsAsSeekHeader1 := by
  intro idx b s
  have hx := exec_dfrRsvSt3 idx b s
  obtain ⟨-, -, -, hrest⟩ := frame_of_acceptedByte hx rfl
  refine ⟨decode_dfrKeyOf .., _, hx, ?_, (hrest nofun).1, ?_,
    unchanged_of_acceptedByte hx rfl nofun⟩
  · exact (tlen_of_exec hx).trans rfl
  · by_cases hb : b = 0x55
    · rw [if_pos hb, if_pos hb]
      exact ⟨rfl, rfl, (entry_set_self ..).trans hb, agreeExcept_set (by decide)⟩
    · rw [if_neg hb, if_neg hb]
      exact ⟨rfl, rfl, rfl⟩

end Sys2Proof.Laws
end

section
/-! DFR_STEP by its cases (40_deframer.md R110), the registers R115 allows, and runs of it over a sequence of
events (R117); then the statement of R121 and R116. -/

namespace Sys2Proof.Laws

open Sys2Proof.Machine Sys2Proof.Safety

/-- What R115 and R27 say of the recognizer's registers. -/
structure RegsInv (r : DfrRegs) : Prop where
  tlen : r.tlen = 60
  control : (r.st = stS1 ∧ r.idx = 0) ∨ (r.st = stS2 ∧ r.idx = 1 ∧ r.buf[0] = hdr0) ∨
    (r.st = stCol ∧ 2 ≤ r.idx.toNat ∧ r.idx.toNat ≤ 59 ∧ r.buf[0] = hdr0 ∧ r.buf[1] = hdr1)

/-- The recognizer of a state that the rules allow. -/
theorem regsInv_dfrRegs {s : State} (h : DfrInv s) : RegsInv (dfrRegs s) where
  tlen := h.tlen
  control := h.st.imp (fun h1 => ⟨h1, h.seek1 h1⟩)
    (Or.imp (fun h2 => ⟨h2, h.seek2 h2⟩) fun h3 => ⟨h3, h.collect h3⟩)

/-- The recognizer after reset. -/
theorem regsInv_reset (buf : Frame) : RegsInv (resetDfrRegs buf) := ⟨rfl, .inl ⟨rfl, rfl⟩⟩

/-- A soft clear leaves S1 (R109). -/
theorem regsInv_dfrClear {r : DfrRegs} (h : RegsInv r) : RegsInv (dfrClear r) :=
  ⟨h.tlen, .inl ⟨rfl, rfl⟩⟩

section
variable {r : DfrRegs} {b : Byte}

/-- A byte outside Collecting that is no second header byte goes to SeekHeader1 (R101, R102, R104, R105,
R108). -/
theorem dfrStep_seek (hcol : r.st ≠ stCol) (hno : ¬(r.st = stS2 ∧ b = hdr1)) :
    dfrStep r b = seekStep r b := by
  rw [dfrStep, if_neg hcol, if_neg hno]

/-- The store of DFR_STEP at an index of the array. -/
theorem pushByte_of_lt (h : r.idx.toNat < 60) :
    pushByte r b = { r with buf := r.buf.set r.idx.toNat b h, idx := r.idx + 1 } := by
  simp [pushByte, Vector.setIfInBounds, Vector.set, Array.setIfInBounds, h]

/-- The second header byte in SeekHeader2 (R103). -/
theorem dfrStep_header (hst : r.st = stS2) (hidx : r.idx.toNat < 60) :
    dfrStep r hdr1 =
      (⟨stCol, r.idx + 1, frameLen6, r.buf.set r.idx.toNat hdr1 hidx⟩, false) := by
  rw [dfrStep, if_neg (by rw [hst]; decide), if_pos ⟨hst, rfl⟩, pushByte_of_lt hidx]

/-- A byte of the payload but the last (R106). -/
theorem dfrStep_store (hst : r.st = stCol) (htlen : r.tlen = 60) (hidx : r.idx.toNat < 59) :
    dfrStep r b =
      ({ r with buf := r.buf.set r.idx.toNat b (by omega), idx := r.idx + 1 }, false) := by
  have hlt : r.idx.toNat < r.tlen.toNat := by rw [htlen]; exact hidx.trans (by decide)
  have hne : r.idx + 1 ≠ r.tlen := by
    intro h
    have hval : r.idx.toNat + 1 = 60 := by
      rw [← idx_add_one_toNat (by omega), h, htlen]
      rfl
    omega
  rw [dfrStep, if_pos hst, collectStep, if_pos hlt, pushByte_of_lt]
  exact if_neg hne

/-- The 60th byte (R107). -/
theorem dfrStep_last (hst : r.st = stCol) (htlen : r.tlen = 60) (hidx : r.idx = 59) :
    dfrStep r b = (resetDfrRegs (r.buf.set 59 b), true) := by
  obtain ⟨st, idx, tlen, buf⟩ := r
  cases hst
  cases htlen
  cases hidx
  simp [dfrStep, collectStep, pushByte, resetDfrRegs, Vector.setIfInBounds, Vector.set,
    Array.setIfInBounds]

end

/-- What a byte can do to a recognizer that R115 allows: the registers after it, and done. -/
inductive ByteMove (r : DfrRegs) (b : Byte) : DfrRegs × Bool → Prop
  | hit (hb : b = hdr0) : ByteMove r b ({ r with st := stS2, idx := 1, buf := r.buf.set 0 b }, false)
  | miss : ByteMove r b (dfrClear r, false)
  | header (hb : b = hdr1) (hidx : r.idx = 1) (h0 : r.buf[0] = hdr0) :
    ByteMove r b (⟨stCol, 2, frameLen6, r.buf.set 1 b⟩, false)
  | store (hst : r.st = stCol) (h2 : 2 ≤ r.idx.toNat) (h59 : r.idx.toNat < 59)
    (h0 : r.buf[0] = hdr0) (h1 : r.buf[1] = hdr1) :
    ByteMove r b
      ({ r with buf := r.buf.set r.idx.toNat b (Nat.lt_succ_of_lt h59), idx := r.idx + 1 }, false)
  | last (hidx : r.idx = 59) (h0 : r.buf[0] = hdr0) (h1 : r.buf[1] = hdr1) :
    ByteMove r b (resetDfrRegs (r.buf.set 59 b), true)

theorem byteMove_seekStep (r : DfrRegs) (b : Byte) : ByteMove r b (seekStep r b) := by
  rw [seekStep]
  split
  · exact .hit ‹_›
  · exact .miss

/-- DFR_STEP makes one of these moves. -/
theorem byteMove_dfrStep {r : DfrRegs} (h : RegsInv r) (b : Byte) : ByteMove r b (dfrStep r b) := by
  obtain ⟨hst, _⟩ | ⟨hst, hidx, h0⟩ | ⟨hst, h2, h59, h0, h1⟩ := h.control
  · rw [dfrStep_seek (by simp [hst]) (by simp [hst])]
    exact byteMove_seekStep r b
  · by_cases hb : b = hdr1
    · subst hb
      have hlt : r.idx.toNat < 60 := by simp [hidx]
      rw [dfrStep_header hst hlt]
      simp only [hidx]
      exact .header rfl hidx h0
    · rw [dfrStep_seek (by simp [hst]) fun hc => hb hc.2]
      exact byteMove_seekStep r b
  · obtain hlt | heq := h59.lt_or_eq
    · rw [dfrStep_store hst h.tlen hlt]
      exact .store hst h2 hlt h0 h1
    · have hidx : r.idx = 59 := BitVec.eq_of_toNat_eq heq
      rw [dfrStep_last hst h.tlen hidx]
      exact .last hidx h0 h1

/-- DFR_STEP keeps R115. -/
theorem regsInv_dfrStep {r : DfrRegs} (h : RegsInv r) (b : Byte) : RegsInv (dfrStep r b).1 := by
  have hmove := byteMove_dfrStep h b
  generalize dfrStep r b = q at hmove
  cases hmove with
  | hit hb => exact ⟨h.tlen, .inr (.inl ⟨rfl, rfl, by simpa using hb⟩)⟩
  | miss => exact regsInv_dfrClear h
  | header hb hidx h0 =>
    exact ⟨rfl, .inr (.inr ⟨rfl, by simp, by simp, by simpa using h0, by simpa using hb⟩)⟩
  | store hst h2 h59 h0 h1 =>
    have hnext := idx_add_one_toNat (i := r.idx) (by omega)
    refine ⟨h.tlen, .inr (.inr ⟨hst, ?_, ?_, ?_, ?_⟩)⟩
    · simp only [hnext]; omega
    · simp only [hnext]; omega
    · rwa [Vector.getElem_set_ne _ _ (by omega)]
    · rwa [Vector.getElem_set_ne _ _ (by omega)]
  | last => exact regsInv_reset _

/-! ## Runs -/

/-- A run over two sequences, one after the other. -/
theorem dfrRun_append (r : DfrRegs) (es es' : List DfrEvent) :
    dfrRun r (es ++ es') =
      ((dfrRun (dfrRun r es).1 es').1, (dfrRun r es).2 ++ (dfrRun (dfrRun r es).1 es').2) := by
  induction es generalizing r with
  | nil => rfl
  | cons e es ih =>
    cases e with
    | sclr => exact ih (dfrClear r)
    | byte b =>
      simp only [List.cons_append, dfrRun, ih]
      split <;> rfl

/-- A soft clear at the end of a run completes no frame. -/
theorem dfrRun_snoc_sclr (r : DfrRegs) (es : List DfrEvent) :
    dfrRun r (es ++ [.sclr]) = (dfrClear (dfrRun r es).1, (dfrRun r es).2) := by
  simp [dfrRun_append, dfrRun]

/-- The frame that a byte completes, if it does. -/
def completedBy (q : DfrRegs × Bool) : List Frame := if q.2 then [q.1.buf] else []

/-- One more byte at the end of a run. -/
theorem dfrRun_snoc_byte (r : DfrRegs) (es : List DfrEvent) (b : Byte) :
    dfrRun r (es ++ [.byte b]) =
      ((dfrStep (dfrRun r es).1 b).1, (dfrRun r es).2 ++ completedBy (dfrStep (dfrRun r es).1 b)) := by
  rw [dfrRun_append, dfrRun, completedBy]
  split <;> rfl

/-- R115 holds along every run from reset. -/
theorem regsInv_dfrRun (buf : Frame) (es : List DfrEvent) :
    RegsInv (dfrRun (resetDfrRegs buf) es).1 := by
  induction es using List.reverseRecOn with
  | nil => exact regsInv_reset buf
  | append_singleton es e ih =>
    cases e with
    | sclr => rw [dfrRun_snoc_sclr]; exact regsInv_dfrClear ih
    | byte b => rw [dfrRun_snoc_byte]; exact regsInv_dfrStep ih b

/-! ## The bytes in BUF are the bytes accepted last (R116) -/

/-- Accepted bytes as events. -/
abbrev byteEvents (bs : List Byte) : List DfrEvent := bs.map .byte

/-- The bytes of the partial frame in BUF are the last IDX events. -/
def HoldsLastBytes (es : List DfrEvent) (r : DfrRegs) : Prop :=
  byteEvents (r.buf.toList.take r.idx.toNat) <:+ es

/-- Storing the next byte of a frame appends it to those before. -/
theorem take_toList_set (f : Frame) (i : Nat) (b : Byte) (h : i < 60) :
    (f.set i b h).toList.take (i + 1) = f.toList.take i ++ [b] := by
  rw [Vector.toList_set, List.take_add_one, List.take_set_of_le le_rfl,
    List.getElem?_set_self (by simpa using h), Option.toList_some]

/-- Where the first i bytes of BUF are the last events, one more byte stored at i makes i + 1. -/
theorem suffix_store {es : List DfrEvent} {f : Frame} {i : Nat} (b : Byte) (h : i < 60)
    (hs : byteEvents (f.toList.take i) <:+ es) :
    byteEvents ((f.set i b h).toList.take (i + 1)) <:+ es ++ [.byte b] := by
  rw [take_toList_set, byteEvents, List.map_append, List.map_singleton]
  exact (List.suffix_append_inj_of_length_eq rfl).2 ⟨hs, rfl⟩

/-- A byte keeps that; and where it completes a frame, this is the last 60 events, header first. -/
theorem holdsLastBytes_dfrStep {es : List DfrEvent} {r : DfrRegs} (h : RegsInv r)
    (hs : HoldsLastBytes es r) (b : Byte) :
    HoldsLastBytes (es ++ [.byte b]) (dfrStep r b).1 ∧
      ((dfrStep r b).2 = true → byteEvents (dfrStep r b).1.buf.toList <:+ es ++ [.byte b] ∧
        (dfrStep r b).1.buf[0] = hdr0 ∧ (dfrStep r b).1.buf[1] = hdr1) := by
  have hmove := byteMove_dfrStep h b
  generalize dfrStep r b = q at hmove
  cases hmove with
  | hit hb => exact ⟨suffix_store b (by decide) List.nil_suffix, nofun⟩
  | miss => exact ⟨List.nil_suffix, nofun⟩
  | header hb hidx h0 =>
    rw [HoldsLastBytes, hidx] at hs
    exact ⟨suffix_store b (by decide) hs, nofun⟩
  | store hst h2 h59 h0 h1 =>
    refine ⟨?_, nofun⟩
    rw [HoldsLastBytes, idx_add_one_toNat (by omega)]
    exact suffix_store b (by omega) hs
  | last hidx h0 h1 =>
    rw [HoldsLastBytes, hidx] at hs
    refine ⟨List.nil_suffix, fun _ => ⟨?_, ?_, ?_⟩⟩
    · have hall := suffix_store b (by decide) hs
      rwa [List.take_of_length_le (by simp)] at hall
    · exact (Vector.getElem_set_ne (by decide) _ (by decide)).trans h0
    · exact (Vector.getElem_set_ne (by decide) _ (by decide)).trans h1

/-- So it is along every run from reset. -/
theorem holdsLastBytes_dfrRun (buf : Frame) (es : List DfrEvent) :
    HoldsLastBytes es (dfrRun (resetDfrRegs buf) es).1 := by
  induction es using List.reverseRecOn with
  | nil => exact List.nil_suffix
  | append_singleton es e ih =>
    cases e with
    | sclr => rw [dfrRun_snoc_sclr]; exact List.nil_suffix
    | byte b =>
      rw [dfrRun_snoc_byte]
      exact (holdsLastBytes_dfrStep (regsInv_dfrRun buf es) ih b).1

/-- A byte that completes a frame completes the one made of the last 60 events, header first. -/
theorem completed_is_last_bytes {buf : Frame} {es : List DfrEvent} {b : Byte}
    (hdone : (dfrStep (dfrRun (resetDfrRegs buf) es).1 b).2 = true) :
    byteEvents (dfrStep (dfrRun (resetDfrRegs buf) es).1 b).1.buf.toList <:+ es ++ [.byte b] ∧
      (dfrStep (dfrRun (resetDfrRegs buf) es).1 b).1.buf[0] = hdr0 ∧
      (dfrStep (dfrRun (resetDfrRegs buf) es).1 b).1.buf[1] = hdr1 :=
  (holdsLastBytes_dfrStep (regsInv_dfrRun buf es) (holdsLastBytes_dfrRun buf es) b).2 hdone

/-- Two frames that are both the last events are one. -/
theorem frame_eq_of_suffix {f g : Frame} {es : List DfrEvent} (hf : byteEvents f.toList <:+ es)
    (hg : byteEvents g.toList <:+ es) : f = g := by
  have hlen : (byteEvents f.toList).length = (byteEvents g.toList).length := by simp
  have heq := (List.suffix_of_suffix_length_le hf hg hlen.le).eq_of_length hlen
  exact Vector.toList_inj.1 (List.map_injective_iff.2 (fun _ _ h => DfrEvent.byte.inj h) heq)

/-! ## What BUF holds has no influence on when a frame completes -/

/-- Two recognizers that differ in BUF at most. -/
def SameControl (r q : DfrRegs) : Prop := q.st = r.st ∧ q.idx = r.idx ∧ q.tlen = r.tlen

/-- A byte leads them to such a pair, and completes a frame in both or in neither. -/
theorem sameControl_dfrStep {r q : DfrRegs} (h : SameControl r q) (b : Byte) :
    SameControl (dfrStep r b).1 (dfrStep q b).1 ∧ (dfrStep q b).2 = (dfrStep r b).2 := by
  obtain ⟨st, idx, tlen, buf⟩ := r
  obtain ⟨_, _, _, buf'⟩ := q
  obtain ⟨rfl, rfl, rfl⟩ := h
  simp only [dfrStep, collectStep, seekStep, pushByte, SameControl]
  split_ifs <;> simp

/-- Two runs from reset over the same events stay such a pair and complete the same frames. -/
theorem dfrRun_reset_independent (buf buf' : Frame) (es : List DfrEvent) :
    SameControl (dfrRun (resetDfrRegs buf) es).1 (dfrRun (resetDfrRegs buf') es).1 ∧
      (dfrRun (resetDfrRegs buf) es).2 = (dfrRun (resetDfrRegs buf') es).2 := by
  induction es using List.reverseRecOn with
  | nil => exact ⟨⟨rfl, rfl, rfl⟩, rfl⟩
  | append_singleton es e ih =>
    obtain ⟨hctl, hframes⟩ := ih
    cases e with
    | sclr =>
      rw [dfrRun_snoc_sclr, dfrRun_snoc_sclr]
      exact ⟨⟨rfl, rfl, hctl.2.2⟩, hframes⟩
    | byte b =>
      obtain ⟨hctl', hdone⟩ := sameControl_dfrStep hctl b
      rw [dfrRun_snoc_byte, dfrRun_snoc_byte]
      refine ⟨hctl', congrArg₂ _ hframes ?_⟩
      by_cases hd : (dfrStep (dfrRun (resetDfrRegs buf) es).1 b).2 = true
      · have hd' := hdone.trans hd
        rw [completedBy, completedBy, if_pos hd, if_pos hd',
          frame_eq_of_suffix (completed_is_last_bytes hd).1 (completed_is_last_bytes hd').1]
      · rw [completedBy, completedBy, if_neg hd, if_neg (hdone ▸ hd)]

/-! ## A whole frame from S1 -/

/-- In Collecting, the bytes that are still missing complete the frame they make with those in BUF. -/
theorem dfrRun_collect (f : Frame) (bs : List Byte) : ∀ r : DfrRegs, r.st = stCol → r.tlen = 60 →
    r.idx.toNat < 60 → f.toList = r.buf.toList.take r.idx.toNat ++ bs →
    dfrRun r (byteEvents bs) = (resetDfrRegs f, [f]) := by
  induction bs with
  | nil =>
    intro r _ _ hidx hf
    have hlen := congrArg List.length hf
    simp only [Vector.length_toList, List.length_append, List.length_take, List.length_nil] at hlen
    omega
  | cons b bs ih =>
    intro r hst htlen hidx hf
    have hlen := congrArg List.length hf
    simp only [Vector.length_toList, List.length_append, List.length_take, List.length_cons] at hlen
    obtain hlt | heq := (Nat.le_of_lt_succ hidx).lt_or_eq
    · rw [byteEvents, List.map_cons, dfrRun, dfrStep_store hst htlen hlt]
      refine ih _ hst htlen ?_ ?_
      · simp only [idx_add_one_toNat hidx]; omega
      · rw [hf, idx_add_one_toNat hidx, take_toList_set, List.append_assoc, List.singleton_append]
    · obtain rfl : bs = [] := List.eq_nil_of_length_eq_zero (by omega)
      have hlast : f = r.buf.set 59 b := by
        rw [← Vector.toList_inj, hf, heq, ← take_toList_set _ _ _ (by decide),
          List.take_of_length_le (by simp)]
      rw [byteEvents, List.map_singleton, dfrRun,
        dfrStep_last hst htlen (BitVec.eq_of_toNat_eq heq), hlast]
      rfl

/-- The bytes of a frame, its header apart. -/
theorem toList_eq_header_cons {f : Frame} (h0 : f[0] = hdr0) (h1 : f[1] = hdr1) :
    f.toList = hdr0 :: hdr1 :: f.toList.drop 2 := by
  have hdrop0 := List.drop_eq_getElem_cons (l := f.toList) (i := 0) (by simp)
  have hdrop1 := List.drop_eq_getElem_cons (l := f.toList) (i := 1) (by simp)
  rwa [hdrop1, Vector.getElem_toList, Vector.getElem_toList, h0, h1] at hdrop0

/-- The 60 bytes of a frame that begins with the header, accepted in S1, complete this frame. -/
theorem dfrRun_frame (buf f : Frame) (h0 : f[0] = hdr0) (h1 : f[1] = hdr1) :
    dfrRun (resetDfrRegs buf) (byteEvents f.toList) = (resetDfrRegs f, [f]) := by
  have hbuf : ((buf.set 0 hdr0).set 1 hdr1).toList.take 2 = [hdr0, hdr1] :=
    (take_toList_set _ 1 _ _).trans (congrArg (· ++ [hdr1]) (take_toList_set buf 0 _ _))
  have hsplit := toList_eq_header_cons h0 h1
  have hcollect := dfrRun_collect f (f.toList.drop 2) ⟨stCol, 2, 60, (buf.set 0 hdr0).set 1 hdr1⟩
    rfl rfl (Nat.lt_of_sub_eq_succ rfl) (hsplit.trans (congrArg (· ++ _) hbuf.symm))
  have hfirst : dfrStep (resetDfrRegs buf) hdr0 = (⟨stS2, 1, 60, buf.set 0 hdr0⟩, false) :=
    (dfrStep_seek (by simp [resetDfrRegs]) (by simp)).trans (if_pos rfl)
  have hsecond : dfrStep ⟨stS2, 1, 60, buf.set 0 hdr0⟩ hdr1 =
      (⟨stCol, 2, 60, (buf.set 0 hdr0).set 1 hdr1⟩, false) :=
    dfrStep_header rfl (Nat.lt_of_sub_eq_succ rfl)
  rw [hsplit]
  simpa only [byteEvents, List.map_cons, dfrRun, hfirst, hsecond, Bool.false_eq_true, if_false]
    using hcollect

/-- Settles O54: a frame from S1 (`dfrRun_frame`) twice; the completed frame is the last 60 events
(`completed_is_last_bytes`); and two runs that differ in BUF at reset complete the same frames. -/
theorem backToBackFrames : Obligations.BackToBackFrames := by
  refine ⟨fun buf f g hf0 hf1 hg0 hg1 => ?_, fun buf es b r hr => ?_,
    fun buf buf' es => (dfrRun_reset_independent buf buf' es).2⟩
  · rw [List.map_append, dfrRun_append, dfrRun_frame buf f hf0 hf1, dfrRun_frame f g hg0 hg1]
    rfl
  · obtain ⟨⟨before, hbefore⟩, h0, h1⟩ :=
      completed_is_last_bytes (buf := buf) (es := es) (b := b) (by rw [hr])
    rw [hr] at hbefore h0 h1
    exact ⟨⟨before, hbefore.symm⟩, h0, h1⟩

end Sys2Proof.Laws
end

section
/-! The operations that an edge with rst = 0 runs: PRJ's, then DFR_FO_TAKE, then DFR_SCLR or a byte operation
(30_encoding.md R84 to R89). -/

namespace Sys2Proof.Laws

open Sys2Proof.Machine Sys2Proof.Safety

/-! ## The keys of the other four formats -/

section
variable {n m k : Nat} (x : BitVec n) (y : BitVec m) (z : BitVec k)

/-- The first of three fields. -/
theorem extract_first : (x ++ y ++ z).extractLsb' (m + k) n = x := by
  ext i hi
  have hz : ¬m + k + i < k := by omega
  have hy : ¬m + k + i - k < m := by omega
  have hx : m + k + i - k - m = i := by omega
  simp [BitVec.getElem_extractLsb', BitVec.getLsbD_append, hz, hy, hx, BitVec.getLsbD_eq_getElem hi]

/-- The second of three fields. -/
theorem extract_second : (x ++ y ++ z).extractLsb' k m = y := by
  ext i hi
  simp [BitVec.getElem_extractLsb', BitVec.getLsbD_append, hi]

/-- The last field. -/
theorem extract_last : (x ++ y ++ z).extractLsb' 0 k = z := by
  ext i hi
  simp [BitVec.getElem_extractLsb', BitVec.getLsbD_append, hi]

end

@[simp] theorem keyLen_pfkKeyOf (len : BitVec 7) (b1 b0 : Byte) : keyLen (pfkKeyOf len b1 b0) = len :=
  extract_first len b1 b0

@[simp] theorem keyByte1_pfkKeyOf (len : BitVec 7) (b1 b0 : Byte) :
    keyByte1 (pfkKeyOf len b1 b0) = b1 :=
  extract_second len b1 b0

@[simp] theorem keyByte0_pfkKeyOf (len : BitVec 7) (b1 b0 : Byte) :
    keyByte0 (pfkKeyOf len b1 b0) = b0 :=
  extract_last len b1 b0

@[simp] theorem keyPv_ptkKeyOf (pv ready : Bool) (k : BitVec 4) : keyPv (ptkKeyOf pv ready k) = pv := by
  simp only [keyPv, ptkKeyOf, BitVec.getLsbD_append]
  simp

@[simp] theorem keyPtReady_ptkKeyOf (pv ready : Bool) (k : BitVec 4) :
    keyPtReady (ptkKeyOf pv ready k) = ready := by
  simp only [keyPtReady, ptkKeyOf, BitVec.getLsbD_append]
  simp

@[simp] theorem keyK_ptkKeyOf (pv ready : Bool) (k : BitVec 4) : keyK (ptkKeyOf pv ready k) = k :=
  extract_last _ _ k

/-- The operation that R87 names for an offered frame's length and first two bytes. -/
def frameOperation (len : BitVec 7) (b1 b0 : Byte) : Instr :=
  if len = 60 ∧ b1 = 0xAA ∧ b0 = 0x55 then .prjAccept else .prjMalformed len b1 b0

/-- The operation that R88 names for PV, pt_ready and K. -/
def pointOperation (pv ready : Bool) (k : BitVec 4) : Instr :=
  if pv = true ∧ ready = true then (if k = 15 then .prjPtLast else .prjPtNext k)
  else .prjPtWait pv ready k

/-- The decoder answers the operation of R87. -/
theorem decode_pfkKeyOf (len : BitVec 7) (b1 b0 : Byte) :
    decode (.pfk (pfkKeyOf len b1 b0)) = .ok (frameOperation len b1 b0) := by
  simp only [decode, decodePfk, rowAccept_hits, rowMalformed_hits, if_true, keyLen_pfkKeyOf,
    keyByte1_pfkKeyOf, keyByte0_pfkKeyOf]
  exact (apply_ite Except.ok _ _ _).symm

/-- The decoder answers the operation of R88. -/
theorem decode_ptkKeyOf (pv ready : Bool) (k : BitVec 4) :
    decode (.ptk (ptkKeyOf pv ready k)) = .ok (pointOperation pv ready k) := by
  simp only [decode, decodePtk, rowPtLast_hits, rowPtNext_hits, rowPtWait_hits, if_true, keyPv_ptkKeyOf,
    keyPtReady_ptkKeyOf, keyK_ptkKeyOf, pointOperation]
  by_cases htaken : pv = true ∧ ready = true
  · simp only [htaken, true_and, and_self, if_true]
    exact (apply_ite Except.ok _ _ _).symm
  · rw [if_neg fun hc => htaken ⟨hc.1, hc.2.1⟩, if_neg htaken, if_neg htaken]

/-! ## The operations of an edge -/

section
variable {s t : State}

/-- PRJ's operation at an edge with rst = 0, if it has one. -/
def prjOperations (s : State) : List Instr :=
  (if accf s then [frameOperation (fiLen s) (busByte (fiData s) 1) (busByte (fiData s) 0)] else []) ++
    (if s.pst = .run then [pointOperation s.pv (pins s).ptReady s.k] else [])

/-- DFR_FO_TAKE where the held frame is taken. -/
def takeOperations (s : State) : List Instr := if take s then [.dfrFoTake] else []

/-- The recognizer's operation at an edge with rst = 0, if it has one. -/
def dfrOperations (s : State) : List Instr :=
  (if (pins s).sclr then [.dfrSclr] else []) ++
    (if acc s then [dfrOperation s.st s.idx (pins s).inData] else [])

/-- A key that decodes selects its operation. -/
theorem decodeOk_of_ok {key : Key} {i : Instr} (h : decode key = .ok i) : decodeOk key = some i := by
  rw [decodeOk, h]

/-- A key that is formed under a condition selects its operation under it. -/
theorem filterMap_decodeOk_ite {c : Prop} [Decidable c] {key : Key} {i : Instr}
    (h : decode key = .ok i) :
    (if c then [key] else []).filterMap decodeOk = if c then [i] else [] := by
  split <;> simp [decodeOk_of_ok h]

/-- The two keys that are formed at every edge with rst = 0 select an operation or none (R89). -/
theorem filterMap_decodeOk_pairs (ov ready sclr : Bool) :
    [Key.fox (pairKeyOf ov ready), Key.ctl (pairKeyOf false sclr)].filterMap decodeOk =
      (if ov && ready then [.dfrFoTake] else []) ++ (if sclr then [.dfrSclr] else []) := by
  revert ov ready sclr
  decide

/-- The operations of an edge with rst = 0, in the order in which the model applies them. -/
theorem selected_of_not_rst (hr : (pins s).rst = false) :
    selected s = prjOperations s ++ (takeOperations s ++ dfrOperations s) := by
  have htake : take s = (s.ov && foReady s) := by simp [take, hr]
  rw [selected, formedKeys_of_not_rst hr, List.filterMap_append, List.filterMap_append,
    List.filterMap_append, pfkKey, ptkKey, filterMap_decodeOk_ite (decode_pfkKeyOf ..),
    filterMap_decodeOk_ite (decode_ptkKeyOf ..), filterMap_decodeOk_ite (decode_dfrKeyOf ..),
    filterMap_decodeOk_pairs, prjOperations, takeOperations, dfrOperations, htake]
  simp only [List.append_assoc]

end

end Sys2Proof.Laws
end

section
/-! One edge in closed form: the effect of PRJ's operations, of DFR_FO_TAKE and of the recognizer's
operation; the statement that a step is both cycle steps (40_deframer.md R111, 41_projector.md R155), and the
statements of R112 and R100. -/

namespace Sys2Proof.Laws

open Sys2Proof.Machine Sys2Proof.Safety

variable {s t : State}

/-! ## PRJ -/

/-- No cause exactly for the key of PRJ_ACCEPT (R141, R142). -/
theorem checkCause_eq_zero_iff {len : BitVec 7} {f0 f1 : Byte} :
    checkCause len f0 f1 = 0 ↔ len = 60 ∧ f1 = hdr1 ∧ f0 = hdr0 := by
  have hbits : checkCause len f0 f1 = 0 ↔ causeHdr len f0 f1 = false ∧ causeLen len = false := by
    rw [checkCause]
    cases causeHdr len f0 f1 <;> cases causeLen len <;> decide
  rw [hbits, causeHdr, causeLen]
  constructor
  · rintro ⟨hhdr, hlen⟩
    simp_all
  · rintro ⟨rfl, rfl, rfl⟩
    decide

/-- The cause of an offered frame in terms of the bus bytes its key is made of. -/
theorem offeredCause_eq (s : State) :
    offeredCause s = checkCause (fiLen s) (busByte (fiData s) 0) (busByte (fiData s) 1) :=
  congrArg₂ (checkCause (fiLen s)) (unpack_entry (fiData s) 0 (by decide))
    (unpack_entry (fiData s) 1 (by decide))

/-- The frame operation is the one that the frame check asks for (R155). -/
theorem frameOperation_offered (s : State) :
    frameOperation (fiLen s) (busByte (fiData s) 1) (busByte (fiData s) 0) =
      if offeredCause s = 0 then .prjAccept
      else .prjMalformed (fiLen s) (busByte (fiData s) 1) (busByte (fiData s) 0) := by
  simp only [frameOperation, offeredCause_eq, checkCause_eq_zero_iff]

/-- The frame that PRJ admits at an edge with rst = 0, if any. -/
def admittedNow (s : State) : List Frame :=
  if accf s ∧ offeredCause s = 0 then [unpack (fiData s)] else []

/-- The point that is transferred at an edge with rst = 0, if any. -/
def pointsNow (s : State) : List PointRecord :=
  if s.pst = .run ∧ s.pv = true ∧ (pins s).ptReady = true then [point s.build.params s.pf s.k] else []

/-- s after PRJ's operations: the registers of R155, the pulses cleared, and what PRJ took noted. -/
def prjMoved (s : State) : State :=
  { s with
    done := false
    pst := (prjEdge s).pst, k := (prjEdge s).k, pv := (prjEdge s).pv, pf := (prjEdge s).pf
    errp := (prjEdge s).errp, errs := (prjEdge s).errs, errc := (prjEdge s).errc
    trace := { s.trace with
      admitted := s.trace.admitted ++ admittedNow s
      points := s.trace.points ++ pointsNow s } }

/-- PRJ takes no frame in RUN (R140). -/
theorem accf_of_run (hp : s.pst = .run) : accf s = false := by simp [accf, fiReady, hp]

/-- PRJ's operations at an edge in IDLE, by whether a frame is accepted and passes the check. -/
theorem execAll_prjOperations_idle (hr : (pins s).rst = false) (hp : s.pst = .idle) :
    execAll (prjOperations s) (beginEdge s) = .next (prjMoved s) := by
  have hpoints : pointsNow s = [] := by simp [pointsNow, hp]
  cases hacc : accf s with
  | false =>
    have hops : prjOperations s = [] := by simp [prjOperations, hacc, hp]
    have hframe : admittedNow s = [] := by simp [admittedNow, hacc]
    have hedge : prjEdge s = { s with errp := false } := by simp [prjEdge, hr, hp, hacc]
    rw [hops, prjMoved, hedge, hframe, hpoints, List.append_nil, List.append_nil]
    rfl
  | true =>
    by_cases hc : offeredCause s = 0#2
    · have hops : prjOperations s = [.prjAccept] := by
        simp [prjOperations, hacc, hp, frameOperation_offered, hc]
      have hframe : admittedNow s = [unpack (fiData s)] := by simp [admittedNow, hacc, hc]
      have hedge : prjEdge s = { s with
          pf := unpack (fiData s), pst := .run, k := 0, pv := draw s, errp := false } := by
        simp [prjEdge, hr, hp, hacc, hc]
      rw [hops, prjMoved, hedge, hframe, hpoints, List.append_nil]
      rfl
    · have hops : prjOperations s =
          [.prjMalformed (fiLen s) (busByte (fiData s) 1) (busByte (fiData s) 0)] := by
        simp [prjOperations, hacc, hp, frameOperation_offered, hc]
      have hframe : admittedNow s = [] := by simp [admittedNow, hc]
      have hedge : prjEdge s = { s with
          errp := true, errs := true, errc := s.errc ||| offeredCause s } := by
        simp [prjEdge, hr, hp, hacc, hc]
      rw [hops, prjMoved, hedge, hframe, hpoints, List.append_nil, List.append_nil, offeredCause_eq]
      rfl

/-- PRJ's operations at an edge in RUN, by whether a point is taken and is the last. -/
theorem execAll_prjOperations_run (hr : (pins s).rst = false) (hp : s.pst = .run) :
    execAll (prjOperations s) (beginEdge s) = .next (prjMoved s) := by
  have hacc := accf_of_run hp
  have hframe : admittedNow s = [] := by simp [admittedNow, hacc]
  have hops : prjOperations s = [pointOperation s.pv (pins s).ptReady s.k] := by
    simp [prjOperations, hacc, hp]
  by_cases htaken : s.pv = true ∧ (pins s).ptReady = true
  · have hpoints : pointsNow s = [point s.build.params s.pf s.k] := by simp [pointsNow, hp, htaken]
    by_cases hk : s.k = 15
    · have hedge : prjEdge s = { s with pst := .idle, k := 0, pv := false, errp := false } := by
        simp [prjEdge, hr, hp, htaken, hk]
      rw [hops, pointOperation, if_pos htaken, if_pos hk, prjMoved, hedge, hframe, hpoints,
        List.append_nil, hk]
      rfl
    · have hedge : prjEdge s = { s with k := s.k + 1, pv := draw s, errp := false } := by
        simp [prjEdge, hr, hp, htaken, show ¬s.k = 15#4 from hk]
      rw [hops, pointOperation, if_pos htaken, if_neg hk, prjMoved, hedge, hframe, hpoints,
        List.append_nil]
      rfl
  · have hpoints : pointsNow s = [] := by simp only [pointsNow, htaken, and_false, if_false]
    have hedge : prjEdge s = { s with pv := s.pv || draw s, errp := false } := by
      simp [prjEdge, hr, hp, htaken]
    rw [hops, pointOperation, if_neg htaken, prjMoved, hedge, hframe, hpoints, List.append_nil,
      List.append_nil]
    rfl

/-- PRJ's operations at an edge with rst = 0 make the move of R155. -/
theorem execAll_prjOperations (hr : (pins s).rst = false) :
    execAll (prjOperations s) (beginEdge s) = .next (prjMoved s) := by
  cases hp : s.pst with
  | idle => exact execAll_prjOperations_idle hr hp
  | run => exact execAll_prjOperations_run hr hp

/-! ## The frame channel -/

/-- The frame that DFR hands off at an edge, if any. -/
def handedNow (s : State) : List Frame := if take s then [s.ob] else []

/-- s after PRJ's operations and DFR_FO_TAKE: OV falls where the held frame is taken (R113). -/
def takeMoved (s : State) : State :=
  { prjMoved s with
    ov := s.ov && !take s
    trace := { (prjMoved s).trace with handed := s.trace.handed ++ handedNow s } }

/-- DFR_FO_TAKE after PRJ's operations makes this move. -/
theorem execAll_takeOperations : execAll (takeOperations s) (prjMoved s) = .next (takeMoved s) := by
  cases htake : take s with
  | false =>
    rw [takeOperations, takeMoved, handedNow, htake, Bool.not_false, Bool.and_true]
    simp only [Bool.false_eq_true, if_false, List.append_nil]
    rfl
  | true =>
    rw [takeOperations, takeMoved, handedNow, htake, Bool.not_true, Bool.and_false]
    rfl

/-- A step at an edge with rst = 0: PRJ and the frame channel have made their move, and the recognizer's
operation decides. -/
theorem step_of_not_rst (hr : (pins s).rst = false) :
    step s = .next t ↔ ∃ b w, admitParams s = .ok b ∧
      execAll (dfrOperations s) (takeMoved s) = .next w ∧ t = endEdge b w := by
  have hall : execAll (selected s) (beginEdge s) = execAll (dfrOperations s) (takeMoved s) := by
    rw [selected_of_not_rst hr, execAll_append, execAll_prjOperations hr, andThen_next, execAll_append,
      execAll_takeOperations, andThen_next]
  rw [step_eq_next, hall]

/-! ## The recognizer -/

/-- An accepted byte comes with rst = 0 and sclr = 0 (R100). -/
theorem pins_of_acc (h : acc s = true) : (pins s).rst = false ∧ (pins s).sclr = false := by
  simp only [acc, inReady, Bool.and_eq_true, Bool.not_eq_true'] at h
  exact h.2.1

/-- The events of R117 at an edge with rst = 0: the accepted byte or the soft clear. -/
def eventsNow (s : State) : List DfrEvent :=
  if acc s then [.byte (pins s).inData] else if (pins s).sclr then [.sclr] else []

theorem dfrOperations_of_acc (h : acc s = true) :
    dfrOperations s = [dfrOperation s.st s.idx (pins s).inData] := by
  simp [dfrOperations, h, (pins_of_acc h).2]

theorem dfrOperations_of_sclr (h : (pins s).sclr = true) : dfrOperations s = [.dfrSclr] := by
  have hacc : acc s = false := by simp [acc, inReady, h]
  simp [dfrOperations, h, hacc]

theorem dfrOperations_of_quiet (hacc : acc s = false) (hs : (pins s).sclr = false) :
    dfrOperations s = [] := by
  simp [dfrOperations, hacc, hs]

/-- s with the recognizer moved to q.1, the frame completed there held if q.2, and the events noted. -/
def recognized (q : DfrRegs × Bool) (es : List DfrEvent) (s : State) : State :=
  { s with
    st := q.1.st, idx := q.1.idx, tlen := q.1.tlen, buf := q.1.buf
    ob := if q.2 then q.1.buf else s.ob
    ov := q.2 || s.ov
    done := q.2
    trace := { s.trace with
      accepted := s.trace.accepted ++ es
      completed := s.trace.completed ++ completedBy q } }

/-- A move that completes no frame. -/
theorem recognized_false (r : DfrRegs) (es : List DfrEvent) (s : State) :
    recognized (r, false) es s = { s with
      st := r.st, idx := r.idx, tlen := r.tlen, buf := r.buf, done := false
      trace := { s.trace with accepted := s.trace.accepted ++ es } } := by
  rw [recognized, completedBy]
  simp

/-- SeekHeader1 on a byte, as R110 and as the operations of R101, R102, R104 and R105 write it. -/
theorem recognized_seekStep (b : Byte) (s : State) :
    recognized (seekStep (dfrRegs s) b) [.byte b] s =
      if b = hdr0 then seekHit b (noteByte b s) else seekMiss (toSeek (noteByte b s)) := by
  rw [seekStep]
  split <;> exact recognized_false ..

/-- Where ST is S1, the operations that go back to S1 first do not change it. -/
theorem toSeek_of_st (h : s.st = stS1) : toSeek s = s := by
  rw [toSeek, ← h]

/-- The registers after reset differ from others with TLEN = 60 in ST, IDX and BUF. -/
theorem resetDfrRegs_of_tlen {r : DfrRegs} (h : r.tlen = 60) (f : Frame) :
    resetDfrRegs f = { r with st := stS1, idx := 0, buf := f } := by
  rw [resetDfrRegs, h]

/-- A list of one operation. -/
theorem execAll_singleton (i : Instr) (s : State) : execAll [i] s = exec i s := by
  rw [execAll_cons]
  cases exec i s <;> rfl

/-- In the states R115 allows, the operation of the key {ST, IDX, b} makes the move of DFR_STEP. -/
theorem exec_dfrOperation (h : RegsInv (dfrRegs s)) (b : Byte) :
    exec (dfrOperation s.st s.idx b) s = .next (recognized (dfrStep (dfrRegs s) b) [.byte b] s) := by
  obtain ⟨hst : s.st = stS1, _⟩ | ⟨hst : s.st = stS2, hidx : s.idx = 1, _⟩ |
    ⟨hst : s.st = stCol, _, h59 : s.idx.toNat ≤ 59, _⟩ := h.control
  · rw [dfrStep_seek (by simp [dfrRegs, hst]) (by simp [dfrRegs, hst]), recognized_seekStep, hst,
      toSeek_of_st (s := noteByte b s) hst]
    by_cases hb : b = hdr0
    · subst hb
      rfl
    · rw [if_neg hb, dfrOperation, if_pos rfl, if_neg hb]
      rfl
  · by_cases hAA : b = hdr1
    · subst hAA
      have hlt : s.idx.toNat < 60 := by simp [hidx]
      rw [dfrStep_header (r := dfrRegs s) hst hlt, recognized_false, hst]
      exact exec_dfrHdr2Match_eq_next.2 ⟨hlt, rfl⟩
    · rw [dfrStep_seek (by simp [dfrRegs, hst]) fun hc => hAA hc.2, recognized_seekStep, hst]
      by_cases hb : b = hdr0
      · subst hb
        rfl
      · rw [if_neg hb, dfrOperation, if_neg (by decide), if_pos rfl, if_neg hAA, if_neg hb]
        rfl
  · obtain hlt | heq := h59.lt_or_eq
    · have hne : s.idx ≠ 59 := fun hc => by simp [hc] at hlt
      have htlen : s.idx.toNat < s.tlen.toNat := by
        rw [show s.tlen = 60 from h.tlen]
        exact hlt.trans (by decide)
      rw [dfrStep_store (r := dfrRegs s) hst h.tlen hlt, recognized_false, hst, dfrOperation,
        if_neg (by decide), if_neg (by decide), if_pos rfl, if_neg hne]
      exact exec_dfrColStore_eq_next.2 (.inl ⟨htlen, Nat.lt_succ_of_lt hlt, rfl⟩)
    · have hidx : s.idx = 59 := BitVec.eq_of_toNat_eq heq
      rw [dfrStep_last (r := dfrRegs s) hst h.tlen hidx, resetDfrRegs_of_tlen h.tlen, hst, hidx]
      rfl

/-- The recognizer's operation at an edge with rst = 0 makes the move of R111. -/
theorem execAll_dfrOperations (h : DfrInv s) :
    execAll (dfrOperations s) (takeMoved s) =
      .next (recognized (dfrNext s) (eventsNow s) (takeMoved s)) := by
  cases hacc : acc s with
  | true =>
    have hregs : RegsInv (dfrRegs s) := regsInv_dfrRegs h
    rw [dfrOperations_of_acc hacc, dfrNext, eventsNow, if_pos hacc, if_pos hacc, execAll_singleton]
    exact exec_dfrOperation (s := takeMoved s) hregs (pins s).inData
  | false =>
    cases hs : (pins s).sclr with
    | true =>
      rw [dfrOperations_of_sclr hs]
      simp only [dfrNext, eventsNow, hacc, hs, Bool.false_eq_true, if_false, if_true, recognized_false]
      rfl
    | false =>
      rw [dfrOperations_of_quiet hacc hs]
      simp only [dfrNext, eventsNow, hacc, hs, Bool.false_eq_true, if_false, recognized_false,
        List.append_nil]
      rfl

/-! ## The step -/

/-- The model's record after an edge (log 5). -/
def edgeRecord (s : State) : Trace :=
  if (pins s).rst then Trace.empty
  else
    { accepted := s.trace.accepted ++ eventsNow s
      completed := s.trace.completed ++ completedBy (dfrNext s)
      handed := s.trace.handed ++ handedNow s
      admitted := s.trace.admitted ++ admittedNow s
      points := s.trace.points ++ pointsNow s }

/-- The state after an edge under the build b: DFR's registers as R111 writes them, PRJ's as R155 does, and
the surroundings of the next cycle. -/
def bothEdges (b : Build) (s : State) : State :=
  { dfrEdge s with
    pst := (prjEdge s).pst, k := (prjEdge s).k, pv := (prjEdge s).pv, pf := (prjEdge s).pf
    errp := (prjEdge s).errp, errs := (prjEdge s).errs, errc := (prjEdge s).errc
    build := b, wiring := s.wiring, env := s.env.tail, tick := s.tick + 1
    trace := edgeRecord s }

/-- In the states the rules allow, a step with an admitted parameter setting is both cycle steps. -/
theorem step_eq_bothEdges {b : Build} (h : DfrInv s) (hb : admitParams s = .ok b) :
    step s = .next (bothEdges b s) := by
  cases hr : (pins s).rst with
  | true =>
    rw [step_of_rst hr hb, bothEdges, dfrEdge, prjEdge, edgeRecord, if_pos hr, if_pos hr, if_pos hr]
    rfl
  | false =>
    have hnr : ¬(pins s).rst = true := by simp [hr]
    refine (step_of_not_rst hr).2 ⟨b, _, hb, execAll_dfrOperations h, ?_⟩
    rw [bothEdges, dfrEdge, edgeRecord, if_neg hnr, if_neg hnr]
    rfl

/-- The same, for a step that answers next. -/
theorem eq_bothEdges_of_step (h : DfrInv s) (hx : step s = .next t) :
    ∃ b, admitParams s = .ok b ∧ t = bothEdges b s := by
  obtain ⟨b, _, hb, -⟩ := step_eq_next.1 hx
  rw [step_eq_bothEdges h hb] at hx
  cases hx
  exact ⟨b, hb, rfl⟩

/-- Settles O44: the step is `bothEdges`, whose registers are those of the two cycle steps. -/
theorem stepIsBothCycleSteps : Obligations.StepIsBothCycleSteps := by
  intro s t h hx
  obtain ⟨b, -, rfl⟩ := eq_bothEdges_of_step h.dfr hx
  exact ⟨⟨rfl, rfl, rfl, rfl, rfl, rfl, rfl⟩, ⟨rfl, rfl, rfl, rfl, rfl, rfl, rfl⟩, rfl, rfl, rfl⟩

/-- The recognizer's part of R111 completes a frame exactly where an accepted byte does. -/
theorem dfrNext_completes_iff : (dfrNext s).2 = true ↔
    acc s = true ∧ (dfrStep (dfrRegs s) (pins s).inData).2 = true := by
  cases hacc : acc s with
  | true => simp [dfrNext, hacc]
  | false => cases hs : (pins s).sclr <;> simp [dfrNext, hacc, hs]

/-- Settles O49: frame_done after the step is the DONE of R111, by whether rst is 1. -/
theorem frameDoneMarksCompletion : Obligations.FrameDoneMarksCompletion := by
  intro s t h hx
  obtain ⟨b, -, rfl⟩ := eq_bothEdges_of_step h.dfr hx
  change (dfrEdge s).done = true ↔ _
  cases hr : (pins s).rst with
  | true => simp [dfrEdge, hr]
  | false =>
    have hdone : (dfrEdge s).done = (dfrNext s).2 := by simp [dfrEdge, hr]
    rw [hdone, dfrNext_completes_iff, eq_self, true_and]

/-- With TLEN = 60, the next byte would complete a frame exactly at index 59 (R100). -/
theorem completes_iff (h : DfrInv s) : completes s = true ↔ s.st = stCol ∧ s.idx = 59 := by
  rw [completes, h.tlen, Bool.and_eq_true, beq_iff_eq, beq_iff_eq, BitVec.toNat_eq (y := 59)]
  exact and_congr_right fun _ => Nat.succ_inj

/-- in_ready as R100 and R238 write it, in the states the rules allow. -/
theorem inReady_iff (h : DfrInv s) :
    inReady s = true ↔ (pins s).rst = false ∧ (pins s).sclr = false ∧
      ¬(s.st = stCol ∧ s.idx = 59 ∧ s.ov = true ∧ foReady s = false) := by
  have hwaits : (completes s && s.ov && !foReady s) = true ↔
      s.st = stCol ∧ s.idx = 59 ∧ s.ov = true ∧ foReady s = false := by
    simp only [Bool.and_eq_true, Bool.not_eq_true', completes_iff h, and_assoc]
  rw [← hwaits, Bool.not_eq_true, ← and_assoc]
  simp only [inReady, Bool.and_eq_true, Bool.not_eq_true']

/-- Settles O56: in_ready is `inReady_iff`; the last two clauses split the step at an edge with rst = 0
(`step_of_not_rst`) by whether the recognizer has a byte operation, which notes its byte, or none. -/
theorem unacceptedByteIsNotEvaluated : Obligations.UnacceptedByteIsNotEvaluated := by
  refine ⟨fun s h => ?_, fun s hr => ?_, fun s => rfl, fun s t hv hready hx => ?_,
    fun s t hr hs hno hx => ?_⟩
  · exact inReady_iff h.dfr
  · rw [foReady, fiReady, hr]
    cases s.wiring <;> simp
  · have hacc : acc s = true := Bool.and_eq_true_iff.2 ⟨hv, hready⟩
    obtain ⟨b, w, -, hw, rfl⟩ := (step_of_not_rst (pins_of_acc hacc).1).1 hx
    rw [dfrOperations_of_acc hacc, execAll_singleton] at hw
    obtain ⟨-, -, haccepted, -⟩ := frame_of_acceptedByte hw (acceptedByte_dfrOperation ..)
    exact haccepted
  · have hacc : acc s = false := Bool.eq_false_iff.2 fun h => hno (Bool.and_eq_true_iff.1 h)
    obtain ⟨b, w, -, hw, rfl⟩ := (step_of_not_rst hr).1 hx
    rw [dfrOperations_of_quiet hacc hs] at hw
    cases hw
    exact ⟨rfl, rfl, rfl, rfl, rfl⟩

end Sys2Proof.Laws
end

section
/-! The field decoders in integers: the angles, the wrap, the span and the interpolated angle with their
ranges, which show that no stored width truncates (41_projector.md R143 to R148); and the statements about them. -/

namespace Sys2Proof.Laws

open Sys2Proof.Machine

/-! ## The angles -/

/-- The range of a decoded angle (R143). -/
theorem angle_bounds (raw : BitVec 16) : -40960 ≤ angle raw ∧ angle raw ≤ 24575 := by
  have hraw := raw.isLt
  rw [angle, angOff]
  omega

/-- A decoded angle survives its storage at 17 bits. -/
theorem toInt_angle (raw : BitVec 16) : (BitVec.ofInt 17 (angle raw)).toInt = angle raw := by
  have hangle := angle_bounds raw
  exact BitVec.toInt_ofInt_eq_self (by decide) (by omega) (by omega)

/-- Settles O32: the two stored angles are the decoded ones (`toInt_angle`), in the range of
`angle_bounds`. -/
theorem decodedAnglesAreExact : Obligations.DecodedAnglesAreExact := by
  intro p f k
  obtain ⟨hlow, hhigh⟩ := angle_bounds (firstRaw f)
  exact ⟨toInt_angle (firstRaw f), toInt_angle (lastRaw f), hlow, hhigh, angle_bounds (lastRaw f)⟩

/-- Both raw fields have the same offset, so their angles compare as they do (R144). -/
theorem angle_lt_angle_iff {a b : BitVec 16} : angle a < angle b ↔ a < b := by
  rw [angle, angle, BitVec.lt_def]
  omega

/-- The two cases of the COMPARE test: one turn is added, or none (R144). -/
theorem lastAdjusted_cases (aFirst aLast : Int) :
    (aLast < aFirst ∧ lastAdjusted aFirst aLast = aLast + 23040) ∨
      (aFirst ≤ aLast ∧ lastAdjusted aFirst aLast = aLast) := by
  by_cases hlt : aLast < aFirst
  · exact .inl ⟨hlt, if_pos hlt⟩
  · exact .inr ⟨Int.not_lt.1 hlt, if_neg hlt⟩

/-- Settles O33: the compare is `angle_lt_angle_iff`; the range follows in both cases of the test. -/
theorem wrapAddsOneTurn : Obligations.WrapAddsOneTurn := by
  intro first last
  have hlast := angle_bounds last
  refine ⟨rfl, angle_lt_angle_iff, ?_⟩
  obtain ⟨-, hadj⟩ | ⟨-, hadj⟩ := lastAdjusted_cases (angle first) (angle last) <;> omega

/-! ## The span and the interpolated angle -/

/-- Settles O34: without the wrap the span is not negative, and with it one turn outweighs a difference of
at most 23040. -/
theorem spanRangeAndSign : Obligations.SpanRangeAndSign := by
  intro f
  have hfirst := angle_bounds (firstRaw f)
  have hlast := angle_bounds (lastRaw f)
  refine ⟨rfl, ?_⟩
  rw [span]
  obtain ⟨hlt, hadj⟩ | ⟨hle, hadj⟩ := lastAdjusted_cases (angle (firstRaw f)) (angle (lastRaw f)) <;>
    omega

/-- The range of the interpolated angle (R147). -/
theorem theta_bounds (f : Frame) (k : BitVec 4) : -1638385 ≤ theta f k ∧ theta f k ≤ 1638385 := by
  have hfirst := angle_bounds (firstRaw f)
  obtain ⟨-, hlow, hhigh, -⟩ := spanRangeAndSign f
  have hspan : |span f| ≤ 65535 := abs_le.2 ⟨by omega, hhigh⟩
  have hk : |(k.toNat : Int)| ≤ 15 := by
    have hlt := k.isLt
    rw [Nat.abs_cast]
    omega
  have hproduct : |(k.toNat : Int) * span f| ≤ 15 * 65535 := by
    rw [abs_mul]
    exact mul_le_mul hk hspan (abs_nonneg _) (by decide)
  obtain ⟨hneg, hpos⟩ := abs_le.1 hproduct
  rw [theta]
  omega

/-- Settles O35: the range of `theta_bounds` lies within 22 signed bits. -/
theorem interpolatedAngleIsExact : Obligations.InterpolatedAngleIsExact := by
  intro p f k
  have htheta := theta_bounds f k
  exact ⟨BitVec.toInt_ofInt_eq_self (by decide) (by omega) (by omega), htheta⟩

/-- Settles O41: the raw fields decode to 350 and 10 degrees, so the wrap adds a turn, and the interpolation
is linear in the span of 1280. -/
theorem spanAcrossZeroIsTwentyDegrees : Obligations.SpanAcrossZeroIsTwentyDegrees := by
  intro f hfirst hlast
  have hf : angle (firstRaw f) = 22400 := by rw [hfirst]; rfl
  have hl : angle (lastRaw f) = 640 := by rw [hlast]; rfl
  have hadj : lastAdjusted (angle (firstRaw f)) (angle (lastRaw f)) = 23680 := by rw [hf, hl]; rfl
  have hspan : span f = 1280 := by rw [span, hadj, hf]; rfl
  have htheta (k : BitVec 4) : theta f k = 358400 + 1280 * k.toNat := by
    rw [theta, hspan, hf]
    omega
  exact ⟨hf, hl, hadj, hspan, htheta, htheta 15⟩

/-! ## The distance -/

/-- The two legal masks (R9). -/
theorem distMaskBits_cases (b : Build) : b.params.distMaskBits = 12 ∨ b.params.distMaskBits = 14 := by
  have hlegal := b.legal
  simp only [legalParams, Bool.and_eq_true, Bool.or_eq_true, beq_iff_eq] at hlegal
  obtain ⟨⟨⟨hmask, -⟩, -⟩, -⟩ := hlegal
  exact hmask.symm

/-- A mask of at most 14 bits takes the sample word modulo a power of two, and the u14 holds it (R148). -/
theorem dist_toNat_of_le {p : Params} (h : p.distMaskBits ≤ 14) (f : Frame) (k : BitVec 4) :
    (dist p f k).toNat = (sampleWord f k).toNat % 2 ^ p.distMaskBits := by
  have hpow : 2 ^ p.distMaskBits ≤ 2 ^ 14 := Nat.pow_le_pow_right (by decide) h
  have hmask : (2 ^ p.distMaskBits - 1) % 2 ^ 16 = 2 ^ p.distMaskBits - 1 := Nat.mod_eq_of_lt (by omega)
  have hlt := Nat.mod_lt (sampleWord f k).toNat (Nat.two_pow_pos p.distMaskBits)
  rw [Machine.dist, BitVec.toNat_setWidth, BitVec.toNat_and, BitVec.toNat_ofNat, hmask,
    Nat.and_two_pow_sub_one_eq_mod, Nat.mod_eq_of_lt (hlt.trans_le hpow)]

/-- The distance of a legal build. -/
theorem dist_toNat (b : Build) (f : Frame) (k : BitVec 4) :
    (dist b.params f k).toNat = (sampleWord f k).toNat % 2 ^ b.params.distMaskBits :=
  dist_toNat_of_le (by obtain h | h := distMaskBits_cases b <;> omega) f k

/-- Settles O36: the masked word of `dist_toNat`, below 2^12 under the 12-bit mask. -/
theorem distanceIsMasked : Obligations.DistanceIsMasked := by
  intro b f k
  refine ⟨dist_toNat b f k, fun h12 => ?_, distMaskBits_cases b⟩
  have hdist := dist_toNat b f k
  rw [h12] at hdist
  exact Nat.le_of_lt_succ (hdist.trans_lt (Nat.mod_lt _ (by decide)))

/-! ## The origin -/

/-- A signed 16-bit origin survives its storage at 18 bits (R9, R177). -/
theorem toInt_origin (o : BitVec 16) : (BitVec.ofInt 18 o.toInt).toInt = o.toInt := by
  have hlow := o.le_toInt
  have hhigh := o.toInt_lt
  exact BitVec.toInt_ofInt_eq_self (by decide) (by omega) (by omega)

/-- Half a unit rounds down to 0: rnd(0) = 0, whatever SCALE_DIV is (R176). -/
theorem rnd_zero (p : Params) : rnd p 0 = 0 := by
  rw [rnd, fdiv, Int.fdiv_eq_ediv_of_nonneg _ (by omega)]
  obtain h0 | hpos := Nat.eq_zero_or_pos p.scaleDiv.toNat
  · simp [h0]
  · exact Int.ediv_eq_zero_of_lt (by omega) (by omega)

/-- A point at distance 0 lies at the origin, whatever its angle (R177, R178). -/
theorem point_origin_of_dist_eq_zero {p : Params} {f : Frame} {k : BitVec 4} (h : dist p f k = 0) :
    (point p f k).x.toInt = p.originX.toInt ∧ (point p f k).y.toInt = p.originY.toInt := by
  have hx : pointX p f k = p.originX.toInt := by simp [pointX, h, rnd_zero]
  have hy : pointY p f k = p.originY.toInt := by simp [pointY, h, rnd_zero]
  rw [point, hx, hy]
  exact ⟨toInt_origin _, toInt_origin _⟩

/-- Settles O40: each record of the frame is a POINT, and each is at distance 0
(`point_origin_of_dist_eq_zero`). -/
theorem zeroDistancesGiveOrigin : Obligations.ZeroDistancesGiveOrigin := by
  intro b f hzero r hr
  obtain ⟨k, -, rfl⟩ := List.mem_map.1 hr
  exact ⟨hzero _, point_origin_of_dist_eq_zero (hzero _)⟩

end Sys2Proof.Laws
end

section
/-! The fields of the frame that a FRAME line builds (30_encoding.md R94), and the statement of
41_projector.md R159. -/

namespace Sys2Proof.Laws

open Sys2Proof.Machine

/-- A field whose two bytes are those of a word, low byte first, is the word (R63). -/
theorem le16_eq_of_bytes {f : Frame} {i : Nat} {h : i + 1 < 60} {w : BitVec 16}
    (hlow : entry f i (Nat.lt_of_succ_lt h) = w.extractLsb' 0 8)
    (hhigh : entry f (i + 1) h = w.extractLsb' 8 8) : le16 f i h = w := by
  rw [le16, hlow, hhigh,
    BitVec.extractLsb'_append_extractLsb'_eq_extractLsb' (start₁ := 0) (start₂ := 8) rfl,
    BitVec.extractLsb'_eq_self]

section
variable (first last : BitVec 16) (d : Vector (BitVec 16) 16) (s : Vector Byte 16) (x : Vector Byte 6)

/-- Byte i of the frame is the byte that the line names there. -/
theorem entry_frameLine (i : Nat) (h : i < 60) :
    entry (frameLine first last d s x) i h = frameLineByte first last d s x i := by
  rw [entry, frameLine, Vector.getElem_ofFn]

/-- The raw first angle is the line's `first`. -/
theorem firstRaw_frameLine : firstRaw (frameLine first last d s x) = first :=
  le16_eq_of_bytes (entry_frameLine ..) (entry_frameLine ..)

/-- The raw last angle is the line's `last`. -/
theorem lastRaw_frameLine : lastRaw (frameLine first last d s x) = last :=
  le16_eq_of_bytes (entry_frameLine ..) (entry_frameLine ..)

/-- Byte r of sample j, which stands at offset 8 + 3j (R81). -/
theorem frameLineByte_sample {j r : Nat} (hj : j < 16) (hr : r < 3) :
    frameLineByte first last d s x (8 + 3 * j + r) =
      if r = 0 then d[j].extractLsb' 0 8 else if r = 1 then d[j].extractLsb' 8 8 else s[j] := by
  have hdiv : (8 + 3 * j + r - 8) / 3 = j := by omega
  have hmod : (8 + 3 * j + r - 8) % 3 = r := by omega
  have hd : d.getD j 0 = d[j] := by simp [Vector.getD, hj]
  have hs : s.getD j 0 = s[j] := by simp [Vector.getD, hj]
  simp (disch := omega) only [frameLineByte, if_pos, if_neg, hdiv, hmod, hd, hs]

/-- The sample word is the line's distance. -/
theorem sampleWord_frameLine (k : BitVec 4) :
    sampleWord (frameLine first last d s x) k = d[k.toNat] :=
  le16_eq_of_bytes
    ((entry_frameLine ..).trans (frameLineByte_sample first last d s x k.isLt (r := 0) (by decide)))
    ((entry_frameLine ..).trans (frameLineByte_sample first last d s x k.isLt (r := 1) (by decide)))

/-- The interpolation over the line's two angles (R147). -/
theorem theta_frameLine (k : BitVec 4) :
    theta (frameLine first last d s x) k =
      16 * angle first + k.toNat * (lastAdjusted (angle first) (angle last) - angle first) := by
  rw [theta, span, firstRaw_frameLine, lastRaw_frameLine]

end

/-- Settles O42: the fields of the built frame, one by one; the distance is the sample word under the mask
(`dist_toNat`), which a distance below it passes. -/
theorem frameLineRoundTrip : Obligations.FrameLineRoundTrip := by
  intro b first last d s x k
  have hdist : (dist b.params (frameLine first last d s x) k).toNat =
      d[k.toNat].toNat % 2 ^ b.params.distMaskBits := by
    rw [dist_toNat, sampleWord_frameLine]
  have htheta := theta_frameLine first last d s x
  refine ⟨firstRaw_frameLine .., lastRaw_frameLine .., ?_, htheta k, sampleWord_frameLine .., hdist,
    fun hlt => hdist.trans (Nat.mod_eq_of_lt hlt), ?_, ?_⟩
  · simp [htheta]
  · exact entry_frameLine first last d s x 0 (by decide)
  · exact entry_frameLine first last d s x 1 (by decide)

end Sys2Proof.Laws
end

section
/-! What every PRJ operation leaves unchanged, the causes of CHECK, and the statements of 41_projector.md R141,
R142 and R151 to R154: one operation each. -/

namespace Sys2Proof.Laws

open Sys2Proof.Machine Sys2Proof.Safety

variable {s t : State}

/-- The operations of PRJ (R87, R88). -/
def isPrj : Instr → Bool
  | .prjAccept => true
  | .prjMalformed .. => true
  | .prjPtLast => true
  | .prjPtNext _ => true
  | .prjPtWait .. => true
  | _ => false

/-- A PRJ operation leaves DFR and the surroundings as they were. -/
theorem frame_of_isPrj {i : Instr} (hx : exec i s = .next t) (hi : isPrj i = true) :
    SameDfr s t ∧ SameSurroundings s t := by
  cases i with
  | prjAccept | prjMalformed | prjPtLast | prjPtNext | prjPtWait =>
    cases hx
    simp [SameDfr, SameSurroundings]
  | dfrHdr1Match | dfrHdr1Skip | dfrHdr2Match | dfrHdr2FailResync | dfrHdr2FailSkip | dfrColLast
  | dfrColStore | dfrRsvSt3 | reset | dfrSclr | dfrFoTake =>
    cases hi

/-! ## The frame operations -/

/-- Settles O29: the two bits are the two causes, and neither is set exactly for a whole frame with both
header bytes (`checkCause_eq_zero_iff`). -/
theorem checkCauseBits : Obligations.CheckCauseBits := by
  intro len f0 f1
  refine ⟨?_, ?_, ?_⟩
  · rw [checkCause_bit_zero, causeLen, bne_iff_ne]
  · rw [checkCause_bit_one, causeHdr]
    simp [or_assoc]
  · rw [ne_eq, checkCause_eq_zero_iff, and_comm (a := f1 = hdr1)]

/-- Settles O19: PF takes the bus byte by byte (`unpack_entry`, `busByte_bit`). -/
theorem acceptCapturesFrame : Obligations.AcceptCapturesFrame := by
  intro s
  have hx : exec .prjAccept s = .next { captureFrame (unpack (fiData s)) s with
      pst := .run, k := 0, pv := draw s, errp := false } := rfl
  obtain ⟨hdfr, hsurr⟩ := frame_of_isPrj hx rfl
  refine ⟨decode_pfkKeyOf .., _, hx, rfl, rfl, rfl, rfl, ?_, ?_, fun j h m hm => ?_, hdfr, hsurr, rfl⟩
  · simp only [captureFrame_errs]
  · simp only [captureFrame_errc]
  · rw [captureFrame_pf, unpack_entry, busByte_bit _ j m hm]

/-- Settles O20: MalformedFrame ORs the cause into ERRC (`recordError_errc`), and a nonzero cause is not
PRJ_ACCEPT's key (`checkCause_eq_zero_iff`). -/
theorem malformedRecordsCauseOnly : Obligations.MalformedRecordsCauseOnly := by
  intro len b1 b0 s
  have hx : exec (.prjMalformed len b1 b0) s = .next (raiseMalformed (checkCause len b0 b1) s) := rfl
  obtain ⟨hdfr, hsurr⟩ := frame_of_isPrj hx rfl
  refine ⟨fun hc => ?_, _, hx, rfl, rfl, ?_, ?_, rfl, rfl, rfl, rfl, hdfr, hsurr, rfl⟩
  · rw [decode_pfkKeyOf, frameOperation, if_neg fun hkey => hc (checkCause_eq_zero_iff.2 hkey)]
  · rw [raiseMalformed_errc, BitVec.getLsbD_or, checkCause_bit_zero, causeLen]
  · rw [raiseMalformed_errc, BitVec.getLsbD_or, checkCause_bit_one, causeHdr]

/-! ## The point operations -/

/-- Settles O21: the point of PF and K is taken (`takePoint`) and K advances. -/
theorem ptNextTransfersPoint : Obligations.PtNextTransfersPoint := by
  intro k s
  have hx : exec (.prjPtNext k) s = .next _ := rfl
  obtain ⟨hdfr, hsurr⟩ := frame_of_isPrj hx rfl
  refine ⟨fun hk => ?_, _, hx, rfl, rfl, rfl, rfl, rfl, rfl, rfl, hdfr, hsurr, rfl⟩
  rw [decode_ptkKeyOf, pointOperation, if_pos ⟨rfl, rfl⟩, if_neg hk]

/-- Settles O22: the point at 15 is taken (`takePoint`), whose last flag is set, and PRJ is idle. -/
theorem ptLastEndsFrame : Obligations.PtLastEndsFrame := by
  intro s
  have hx : exec .prjPtLast s = .next _ := rfl
  obtain ⟨hdfr, hsurr⟩ := frame_of_isPrj hx rfl
  exact ⟨decode_ptkKeyOf .., _, hx, rfl, rfl, rfl, rfl, rfl, rfl, rfl, rfl, hdfr, hsurr, rfl⟩

/-- Settles O23: PV becomes PV or the draw, so an offered point stays offered. -/
theorem ptWaitHoldsPoint : Obligations.PtWaitHoldsPoint := by
  intro pv ready k s
  have hx : exec (.prjPtWait pv ready k) s = .next { s with pv := s.pv || draw s } := rfl
  obtain ⟨hdfr, hsurr⟩ := frame_of_isPrj hx rfl
  refine ⟨fun hwait => ?_, _, hx, fun hpv => ?_, fun hpv => ?_, rfl, rfl, rfl, rfl, rfl, rfl, hdfr, hsurr,
    rfl⟩
  · rw [decode_ptkKeyOf, pointOperation, if_neg hwait]
  · rw [hpv, Bool.true_or]
  · rw [hpv, Bool.false_or]

end Sys2Proof.Laws
end

section
/-! The sine/cosine unit in integers: its values on the axes and its period (42_polar_cartesian.md R173, R183),
and a bound on S and C. A CORDIC iteration turns the vector (x, y) and stretches it by √(1 + 4^-i), in either
direction, so the length after 20 iterations is bounded by the start value K_INIT alone, whatever the angle;
the floors of `asr` add less than one unit to each coordinate. -/

namespace Sys2Proof.Laws

open Sys2Proof.Machine

/-! ## Axes and period -/

/-- A whole turn leaves the angle within one turn as it was (R173). -/
theorem turn_add_turns (theta n : Int) : turn (theta + 368640 * n) = turn theta := by
  have hfdiv : fdiv (theta + 368640 * n) 368640 = fdiv theta 368640 + n :=
    Int.add_mul_fdiv_left theta n (by decide)
  rw [turn, turn, fmod, fmod, hfdiv]
  ring

/-- SINCOS sees only the angle within one turn (R173), so it has the period of one turn. -/
theorem sincos_add_turns (theta n : Int) : sincos (theta + 368640 * n) = sincos theta := by
  have hquadrant : quadrant (theta + 368640 * n) = quadrant theta := by
    rw [quadrant, turn_add_turns, ← quadrant]
  have hremainder : remainder (theta + 368640 * n) = remainder theta := by
    rw [remainder, turn_add_turns, ← remainder]
  rw [sincos, hquadrant, hremainder, ← sincos]

/-- The 20 iterations from remainder 0 end at c = 65536 exactly. -/
theorem cosQ_zero : cosQ 0 = 65536 := by decide

/-- The 20 iterations from remainder 0 end at s = 0 exactly. -/
theorem sinQ_zero : sinQ 0 = 0 := by decide

/-- Without a remainder the quadrant alone gives the value (R175). -/
theorem sincos_of_remainder_eq_zero {theta : Int} (h : remainder theta = 0) :
    sincos theta =
      if quadrant theta = 0 then (0, 65536)
      else if quadrant theta = 1 then (65536, 0)
      else if quadrant theta = 2 then (0, -65536)
      else (-65536, 0) := by
  simp only [sincos, h, cosQ_zero, sinQ_zero, neg_zero]

/-- Settles O37: the four axes have remainder 0 and quadrants 0 to 3; the other two angles of the table are a
turn away from one of them (`sincos_add_turns`). -/
theorem sincosAxesAndPeriod : Obligations.SincosAxesAndPeriod := by
  have h0 : sincos 0 = (0, 65536) := sincos_of_remainder_eq_zero (by decide)
  have h270 : sincos 276480 = (-65536, 0) := sincos_of_remainder_eq_zero (by decide)
  refine ⟨h0, sincos_of_remainder_eq_zero (by decide), sincos_of_remainder_eq_zero (by decide), h270,
    ?_, ?_, sincos_add_turns⟩
  · exact (sincos_add_turns 0 1).trans h0
  · exact (sincos_add_turns 276480 (-1)).trans h270

/-! ## The length of the rotated vector -/

/-- The squared length of the vector (x, y) that the iterations turn. -/
def normSq (v : Cordic) : Int := v.x ^ 2 + v.y ^ 2

/-- The weight D at which a step's bound splits (p + e)² into a part of p² and a part of e²; 2^21 keeps the
sum of 20 steps within the bound of `normSq_cordic_le`. -/
def splitWeight : Int := 2 ^ 21

/-- The squared length after iteration i from a squared length of at most `bound`: the stretch by 1 + 4^-i,
and the two floors. -/
def stretch (i : Nat) (bound : Int) : Int :=
  (splitWeight + 1) * (((2 ^ i) ^ 2 + 1) * bound) / (splitWeight * (2 ^ i) ^ 2) + 2 * (splitWeight + 1)

/-- The squared length after the iterations that `cordicFrom` makes. -/
def stretchFrom : Nat → List Int → Int → Int
  | _, [], bound => bound
  | i, _ :: as, bound => stretchFrom (i + 1) as (stretch i bound)

/-- An iteration turns by σ = 1 or σ = -1 (R174). -/
theorem cordicIter_eq_turn (v : Cordic) (i : Nat) (atan : Int) :
    ∃ σ : Int, σ ^ 2 = 1 ∧ (cordicIter v i atan).x = v.x - σ * asr v.y i ∧
      (cordicIter v i atan).y = v.y + σ * asr v.x i := by
  by_cases hz : v.z ≥ 0
  · exact ⟨1, rfl, by simp [cordicIter, hz], by simp [cordicIter, hz]⟩
  · exact ⟨-1, rfl, by simp [cordicIter, hz], by simp [cordicIter, hz, sub_eq_add_neg]⟩

/-- A shift is a division by 2^i that drops a rest e below 2^i. -/
theorem exists_asr_rest (v : Int) (i : Nat) : ∃ e : Int, 2 ^ i * asr v i = v - e ∧ e ^ 2 ≤ (2 ^ i) ^ 2 := by
  have hpos : (0 : Int) < 2 ^ i := by positivity
  have hasr : asr v i = v / 2 ^ i := Int.fdiv_eq_ediv_of_nonneg v hpos.le
  refine ⟨v % 2 ^ i, ?_, pow_le_pow_left₀ (Int.emod_nonneg v hpos.ne') (Int.emod_lt_of_pos v hpos).le 2⟩
  rw [hasr, Int.emod_def, sub_sub_cancel]

/-- The squared length of a sum of two vectors, split at weight d: twice their scalar product is at most
1/d of one squared length and d times the other. -/
theorem weighted_sq_add_le (d p q e f : Int) :
    d * ((p + e) ^ 2 + (q + f) ^ 2) ≤ (d + 1) * (p ^ 2 + q ^ 2) + d * (d + 1) * (e ^ 2 + f ^ 2) := by
  linarith [sq_nonneg (p - d * e), sq_nonneg (q - d * f)]

/-- A turn by σ/t stretches the squared length by 1 + 1/t², here multiplied by t². -/
theorem turned_sq_add {σ : Int} (hσ : σ ^ 2 = 1) (t x y : Int) :
    (t * x - σ * y) ^ 2 + (t * y + σ * x) ^ 2 = (t ^ 2 + 1) * (x ^ 2 + y ^ 2) := by
  linear_combination (x ^ 2 + y ^ 2) * hσ

/-- One iteration stretches the squared length as `stretch` says, whatever its direction: times 2^i, the new
vector is the turned one (`turned_sq_add`) and the two rests. -/
theorem normSq_cordicIter_le {v : Cordic} {bound : Int} (h : normSq v ≤ bound) (i : Nat) (atan : Int) :
    normSq (cordicIter v i atan) ≤ stretch i bound := by
  obtain ⟨σ, hσ, hx, hy⟩ := cordicIter_eq_turn v i atan
  obtain ⟨ex, hex, hexle⟩ := exists_asr_rest v.x i
  obtain ⟨ey, hey, heyle⟩ := exists_asr_rest v.y i
  have hd : (0 : Int) ≤ splitWeight := by decide
  rw [stretch, ← sub_le_iff_le_add, Int.le_ediv_iff_mul_le (by rw [splitWeight]; positivity), normSq, hx, hy]
  rw [normSq] at h
  generalize (2 : Int) ^ i = t at *
  generalize splitWeight = d at *
  have htx : t * (v.x - σ * asr v.y i) = (t * v.x - σ * v.y) + σ * ey := by
    linear_combination (-σ) * hey
  have hty : t * (v.y + σ * asr v.x i) = (t * v.y + σ * v.x) + -(σ * ex) := by
    linear_combination σ * hex
  have hsplit := weighted_sq_add_le d (t * v.x - σ * v.y) (t * v.y + σ * v.x) (σ * ey) (-(σ * ex))
  rw [← htx, ← hty, turned_sq_add hσ] at hsplit
  have hrests : (σ * ey) ^ 2 + (-(σ * ex)) ^ 2 ≤ 2 * t ^ 2 := by
    rw [neg_sq, mul_pow, mul_pow, hσ]
    linarith
  have hlength := mul_le_mul_of_nonneg_left h (by positivity : 0 ≤ (d + 1) * (t ^ 2 + 1))
  have hfloors := mul_le_mul_of_nonneg_left hrests (by positivity : 0 ≤ d * (d + 1))
  linear_combination hsplit + hlength + hfloors

/-- The iterations stretch the squared length as `stretchFrom` says. -/
theorem normSq_cordicFrom_le (i : Nat) (atans : List Int) (v : Cordic) (bound : Int) (h : normSq v ≤ bound) :
    normSq (cordicFrom i atans v) ≤ stretchFrom i atans bound := by
  induction atans generalizing i v bound with
  | nil => exact h
  | cons atan atans ih => exact ih _ _ _ (normSq_cordicIter_le h i atan)

/-- The vector after 20 iterations, whatever the remainder. -/
theorem normSq_cordic_le (r : Int) : normSq (cordic r) ≤ 4194463 ^ 2 :=
  (normSq_cordicFrom_le 0 atanTable _ (kInit ^ 2) (by simp [normSq])).trans (by decide)

/-- A coordinate of that vector without its guard bits (R175). -/
theorem dropGuard_bounds {v : Int} (h : v ^ 2 ≤ 4194463 ^ 2) :
    -65538 ≤ asr (v + 32) 6 ∧ asr (v + 32) 6 ≤ 65538 := by
  obtain ⟨hlow, hhigh⟩ := abs_le_of_sq_le_sq' h (by decide)
  have hasr : asr (v + 32) 6 = (v + 32) / 64 := Int.fdiv_eq_ediv_of_nonneg _ (by decide)
  omega

/-- |c| is at most 65538. -/
theorem cosQ_bounds (r : Int) : -65538 ≤ cosQ r ∧ cosQ r ≤ 65538 :=
  dropGuard_bounds ((le_add_of_nonneg_right (sq_nonneg _)).trans (normSq_cordic_le r))

/-- |s| is at most 65538. -/
theorem sinQ_bounds (r : Int) : -65538 ≤ sinQ r ∧ sinQ r ≤ 65538 :=
  dropGuard_bounds ((le_add_of_nonneg_left (sq_nonneg _)).trans (normSq_cordic_le r))

/-- S and C are at most 65538 in size: wider than R180's 65536, and enough for the coordinates. -/
theorem sincos_bounds (theta : Int) : |(sincos theta).1| ≤ 65538 ∧ |(sincos theta).2| ≤ 65538 := by
  have hcos : |cosQ (remainder theta)| ≤ 65538 := abs_le.2 (cosQ_bounds _)
  have hsin : |sinQ (remainder theta)| ≤ 65538 := abs_le.2 (sinQ_bounds _)
  rw [sincos]
  split_ifs <;> simp only [abs_neg, hcos, hsin, and_self]

end Sys2Proof.Laws
end

section
/-! The scaled rounding and the range of the coordinates (42_polar_cartesian.md R176 to R178, R180). -/

namespace Sys2Proof.Laws

open Sys2Proof.Machine

/-- SCALE_DIV is not 0 in a legal build (R9). -/
theorem scaleDiv_pos (b : Build) : 0 < b.params.scaleDiv.toNat := by
  have hlegal := b.legal
  simp only [legalParams, Bool.and_eq_true, bne_iff_ne, ne_eq] at hlegal
  obtain ⟨-, hne⟩ := hlegal
  exact Nat.pos_of_ne_zero fun h => hne (BitVec.eq_of_toNat_eq h)

/-- rnd is a floor: half a unit is added before the division (R176). -/
theorem rnd_eq_ediv (p : Params) (product : Int) :
    rnd p product = (product + p.scaleDiv.toNat * 32768) / (p.scaleDiv.toNat * 65536) :=
  Int.fdiv_eq_ediv_of_nonneg _ (by omega)

/-- Settles O38: the two inequalities are those of a floor, for the product with half a unit added. -/
theorem roundingIsNearestTiesUp : Obligations.RoundingIsNearestTiesUp := by
  refine ⟨fun b product => ?_, rnd_zero _, by decide, by decide⟩
  have hpos := scaleDiv_pos b
  have hunit : (0 : Int) < b.params.scaleDiv.toNat * 65536 := by omega
  have hlow := Int.ediv_mul_le (product + b.params.scaleDiv.toNat * 32768) hunit.ne'
  have hhigh := Int.lt_ediv_add_one_mul_self (product + b.params.scaleDiv.toNat * 32768) hunit
  rw [← rnd_eq_ediv] at hlow hhigh
  exact ⟨by linarith, by linarith⟩

/-- A scaled distance is at most 16383 in size (R180): half a unit absorbs what the bound 65538 leaves over
65536, and a larger SCALE_DIV only shrinks it. -/
theorem rnd_bounds (b : Build) {c : Int} (hc : |c| ≤ 65538) (d : BitVec 14) :
    -16383 ≤ rnd b.params (c * d.toNat) ∧ rnd b.params (c * d.toNat) ≤ 16383 := by
  have hpos := scaleDiv_pos b
  have hunit : (0 : Int) < b.params.scaleDiv.toNat * 65536 := by omega
  have hd : |(d.toNat : Int)| ≤ 16383 := by
    have hlt := d.isLt
    rw [Nat.abs_cast]
    omega
  have hproduct : |c * d.toNat| ≤ 65538 * 16383 := by
    rw [abs_mul]
    exact mul_le_mul hc hd (abs_nonneg _) (by decide)
  obtain ⟨hlow, hhigh⟩ := abs_le.1 hproduct
  rw [rnd_eq_ediv]
  exact ⟨Int.le_ediv_of_mul_le hunit (by omega),
    Int.le_of_lt_add_one (Int.ediv_lt_of_lt_mul hunit (by omega))⟩

/-- A 16-bit origin moved by at most 16383. -/
theorem coordinate_bounds (b : Build) (f : Frame) (k : BitVec 4) :
    (-49151 ≤ pointX b.params f k ∧ pointX b.params f k ≤ 49150) ∧
      -49151 ≤ pointY b.params f k ∧ pointY b.params f k ≤ 49150 := by
  obtain ⟨hsin, hcos⟩ := sincos_bounds (theta f k)
  have hx := rnd_bounds b hsin (Machine.dist b.params f k)
  have hy := rnd_bounds b hcos (Machine.dist b.params f k)
  have hxlow := b.params.originX.le_toInt
  have hxhigh := b.params.originX.toInt_lt
  have hylow := b.params.originY.le_toInt
  have hyhigh := b.params.originY.toInt_lt
  rw [pointX, pointY]
  omega

/-- Settles O39: the range of `coordinate_bounds` lies within 18 signed bits, so both coordinates are stored
as they are. -/
theorem coordinatesNeverOverflow : Obligations.CoordinatesNeverOverflow := by
  intro b f k
  obtain ⟨⟨hxlow, hxhigh⟩, hylow, hyhigh⟩ := coordinate_bounds b f k
  have hx : (point b.params f k).x.toInt = pointX b.params f k :=
    BitVec.toInt_ofInt_eq_self (by decide) (by omega) (by omega)
  have hy : (point b.params f k).y.toInt = pointY b.params f k :=
    BitVec.toInt_ofInt_eq_self (by decide) (by omega) (by omega)
  refine ⟨hx, hy, ?_⟩
  rw [hx, hy]
  exact ⟨hxlow, hxhigh, hylow, hyhigh⟩

end Sys2Proof.Laws
end

section
/-! What an edge keeps: each cycle step by its cases (40_deframer.md R111, 41_projector.md R155), the
invariant of R115, and the record of the run (R117, 20_memory.md R70). -/

namespace Sys2Proof.Laws

open Sys2Proof.Machine Sys2Proof.Safety

variable {s t : State}

/-! ## PRJ's edge -/

/-- What PRJ can do at an edge with rst = 0 (R155): its state after the edge, the frames it admits and the
points it transfers. -/
inductive PrjMove (s : State) : State → List Frame → List PointRecord → Prop
  | quiet (hp : s.pst = .idle) (ha : accf s = false) : PrjMove s { s with errp := false } [] []
  | malformed (hp : s.pst = .idle) (ha : accf s = true) (hc : offeredCause s ≠ 0) :
    PrjMove s { s with errp := true, errs := true, errc := s.errc ||| offeredCause s } [] []
  | accept (hp : s.pst = .idle) (ha : accf s = true) (hc : offeredCause s = 0) :
    PrjMove s { s with pf := unpack (fiData s), pst := .run, k := 0, pv := draw s, errp := false }
      [unpack (fiData s)] []
  | last (hp : s.pst = .run) (hk : s.k = 15) :
    PrjMove s { s with pst := .idle, k := 0, pv := false, errp := false } []
      [point s.build.params s.pf s.k]
  | next (hp : s.pst = .run) (hk : s.k ≠ 15) :
    PrjMove s { s with k := s.k + 1, pv := draw s, errp := false } [] [point s.build.params s.pf s.k]
  | wait (hp : s.pst = .run) : PrjMove s { s with pv := s.pv || draw s, errp := false } [] []

/-- PRJ's edge makes one of these moves. -/
theorem prjMove_prjEdge (hr : (pins s).rst = false) :
    PrjMove s (prjEdge s) (admittedNow s) (pointsNow s) := by
  cases hp : s.pst with
  | idle =>
    cases ha : accf s with
    | false => simpa [prjEdge, admittedNow, pointsNow, hr, hp, ha] using PrjMove.quiet hp ha
    | true =>
      by_cases hc : offeredCause s = 0#2
      · simpa [prjEdge, admittedNow, pointsNow, hr, hp, ha, hc] using PrjMove.accept hp ha hc
      · simpa [prjEdge, admittedNow, pointsNow, hr, hp, ha, hc] using PrjMove.malformed hp ha hc
  | run =>
    have ha := accf_of_run hp
    by_cases htaken : s.pv = true ∧ (pins s).ptReady = true
    · by_cases hk : s.k = 15#4
      · simpa [prjEdge, admittedNow, pointsNow, hr, hp, ha, htaken, hk] using PrjMove.last hp hk
      · simpa [prjEdge, admittedNow, pointsNow, hr, hp, ha, htaken, hk] using PrjMove.next hp hk
    · simpa [prjEdge, admittedNow, pointsNow, hr, hp, ha, htaken] using PrjMove.wait hp

section
variable {u : State} {fs : List Frame} {ps : List PointRecord}

/-- A frame that passes the check begins with the header (R141). -/
theorem header_of_offeredCause (hc : offeredCause s = 0) :
    (unpack (fiData s))[0] = hdr0 ∧ (unpack (fiData s))[1] = hdr1 :=
  (checkCause_eq_zero_iff.1 hc).2.symm

/-- PRJ's moves keep what the rules say of its registers (R34, R37 to R39, R151). -/
theorem prjInv_of_move (h : PrjInv s) (hm : PrjMove s u fs ps) : PrjInv u := by
  cases hm with
  | quiet hp => exact ⟨h.pvIdle, h.header, nofun, h.cause⟩
  | malformed hp ha hc =>
    exact ⟨h.pvIdle, h.header, fun _ => rfl, fun _ hz => hc (BitVec.or_eq_zero_iff.1 hz).2, fun _ => rfl⟩
  | accept hp ha hc => exact ⟨nofun, fun _ => header_of_offeredCause hc, nofun, h.cause⟩
  | last hp hk => exact ⟨fun _ => rfl, nofun, nofun, h.cause⟩
  | next hp hk | wait hp =>
    exact ⟨fun hi => absurd (hp.symm.trans hi) (by decide), h.header, nofun, h.cause⟩

/-- PRJ captures an accepted frame that has no cause (R151). -/
theorem captures_of_move (hm : PrjMove s u fs ps) (ha : accf s = true) (hc : offeredCause s = 0) :
    u.pst = .run ∧ u.pf = unpack (fiData s) := by
  cases hm with
  | quiet _ hno => exact absurd (ha.symm.trans hno) (by decide)
  | malformed _ _ hne => exact absurd hc hne
  | accept => exact ⟨rfl, rfl⟩
  | last hrun | next hrun | wait hrun =>
    exact absurd (ha.symm.trans (accf_of_run hrun)) (by decide)

/-- PRJ's moves set no error flag where no accepted frame has a cause (R203). -/
theorem errorFree_of_move (he : ErrorFree s) (hm : PrjMove s u fs ps)
    (hc : accf s = true → offeredCause s = 0) : ErrorFree u := by
  obtain ⟨-, herrs, herrc⟩ := he
  cases hm with
  | malformed _ ha hne => exact absurd (hc ha) hne
  | quiet | accept | last | next | wait => exact ⟨rfl, herrs, herrc⟩

/-- PRJ's moves leave the build as it is. -/
theorem build_of_move (hm : PrjMove s u fs ps) : u.build = s.build := by
  cases hm <;> rfl

/-- The point of index k is the first of those still to come (R156). -/
theorem framePoints_drop (p : Params) (f : Frame) (k : BitVec 4) :
    (framePoints p f).drop k.toNat = point p f k :: (framePoints p f).drop (k.toNat + 1) := by
  rw [List.drop_eq_getElem_cons (by simpa [framePoints] using k.isLt)]
  simp [framePoints]

/-- The points that PRJ's moves transfer, with those still to come after, are those that were to come before
and those of the admitted frame (R70, R156). -/
theorem points_of_move (hm : PrjMove s u fs ps) :
    ps ++ pendingPoints u = pendingPoints s ++ fs.flatMap (framePoints s.build.params) := by
  cases hm with
  | quiet hp | malformed hp => simp [pendingPoints, hp]
  | accept hp => simp [pendingPoints, hp]
  | last hp hk =>
    have hrest : (framePoints s.build.params s.pf).drop ((15 : BitVec 4).toNat + 1) = [] :=
      List.drop_of_length_le (by simp [framePoints])
    simp only [pendingPoints, hp]
    rw [framePoints_drop, hk, hrest]
    rfl
  | next hp hk =>
    have hnext : (s.k + 1).toNat = s.k.toNat + 1 := BitVec.toNat_add_of_lt (by bv_omega)
    simp only [pendingPoints, hp]
    rw [framePoints_drop _ _ s.k, hnext, List.flatMap_nil, List.append_nil]
    rfl
  | wait hp => simp [pendingPoints, hp]

end

/-! ## DFR's edge -/

/-- A byte that completes a frame is the 60th, and the frame begins with the header (R107, R115). -/
theorem dfrStep_completes {r : DfrRegs} (h : RegsInv r) {b : Byte} (hdone : (dfrStep r b).2 = true) :
    r.idx = 59 ∧ (dfrStep r b).1.buf[0] = hdr0 ∧ (dfrStep r b).1.buf[1] = hdr1 := by
  have hmove := byteMove_dfrStep h b
  generalize dfrStep r b = q at hmove hdone
  cases hmove with
  | hit | miss | header | store => cases hdone
  | last hidx h0 h1 =>
    exact ⟨hidx, (Vector.getElem_set_ne (by decide) _ (by decide)).trans h0,
      (Vector.getElem_set_ne (by decide) _ (by decide)).trans h1⟩

/-- The recognizer's part of R111 keeps R115. -/
theorem regsInv_dfrNext (h : DfrInv s) : RegsInv (dfrNext s).1 := by
  have hregs := regsInv_dfrRegs h
  rw [dfrNext]
  split_ifs
  · exact regsInv_dfrStep hregs _
  · exact regsInv_dfrClear hregs
  · exact hregs

/-- A frame completed at an edge begins with the header. -/
theorem header_of_dfrNext (h : DfrInv s) (hdone : (dfrNext s).2 = true) :
    (dfrNext s).1.buf[0] = hdr0 ∧ (dfrNext s).1.buf[1] = hdr1 := by
  obtain ⟨hacc, hstep⟩ := dfrNext_completes_iff.1 hdone
  obtain ⟨-, hheader⟩ := dfrStep_completes (regsInv_dfrRegs h) hstep
  simpa only [dfrNext, hacc, if_true] using hheader

/-- A frame completes only where OB is free or its frame is taken at the same edge (R100). -/
theorem take_of_completes (h : DfrInv s) (hdone : (dfrNext s).2 = true) (hov : s.ov = true) :
    take s = true := by
  obtain ⟨hacc, hstep⟩ := dfrNext_completes_iff.1 hdone
  obtain ⟨hidx : s.idx = 59, -⟩ := dfrStep_completes (regsInv_dfrRegs h) hstep
  have hst : s.st = stCol := by
    obtain h1 | h2 | h3 := h.st
    · exact absurd ((h.seek1 h1).symm.trans hidx) (by decide)
    · exact absurd ((h.seek2 h2).1.symm.trans hidx) (by decide)
    · exact h3
  obtain ⟨hr, -, hfree⟩ := (inReady_iff h).1 (Bool.and_eq_true_iff.1 hacc).2
  have hready : foReady s = true := by
    rw [← Bool.not_eq_false]
    exact fun hbusy => hfree ⟨hst, hidx, hov, hbusy⟩
  simp [take, hr, hov, hready]

/-- R115, from what it says of the recognizer's registers and of the held frame. -/
theorem dfrInv_of_regsInv (h : RegsInv (dfrRegs t))
    (hheld : t.ov = true → t.ob[0] = hdr0 ∧ t.ob[1] = hdr1) : DfrInv t := by
  obtain ⟨h1 : t.st = stS1, h1'⟩ | ⟨h2 : t.st = stS2, h2'⟩ | ⟨h3 : t.st = stCol, h3'⟩ := h.control
  · exact ⟨h.tlen, .inl h1, fun _ => h1', by simp [h1], by simp [h1], hheld⟩
  · exact ⟨h.tlen, .inr (.inl h2), by simp [h2], fun _ => h2', by simp [h2], hheld⟩
  · exact ⟨h.tlen, .inr (.inr h3), by simp [h3], by simp [h3], fun _ => h3', hheld⟩

/-- DFR's registers after an edge with rst = 0 (R111). -/
theorem dfrEdge_of_not_rst (hr : (pins s).rst = false) :
    dfrEdge s = { s with
      st := (dfrNext s).1.st, idx := (dfrNext s).1.idx, tlen := (dfrNext s).1.tlen
      buf := (dfrNext s).1.buf
      ov := (dfrNext s).2 || (s.ov && !take s)
      ob := if (dfrNext s).2 then (dfrNext s).1.buf else s.ob
      done := (dfrNext s).2 } :=
  if_neg (by simp [hr])

/-- DFR's edge keeps R115. -/
theorem dfrInv_dfrEdge (h : DfrInv s) : DfrInv (dfrEdge s) := by
  cases hr : (pins s).rst with
  | true =>
    rw [dfrEdge, if_pos hr]
    exact dfrInv_of_regsInv (regsInv_reset _) nofun
  | false =>
    rw [dfrEdge_of_not_rst hr]
    refine dfrInv_of_regsInv (regsInv_dfrNext h) ?_
    simp only [Bool.or_eq_true, Bool.and_eq_true]
    cases hdone : (dfrNext s).2 with
    | true => exact fun _ => header_of_dfrNext h hdone
    | false => simpa using fun hov _ => h.held hov

/-- The frame held before an edge with rst = 0 and the one completed at it are the one handed off and the one
held after it (R70). -/
theorem heldFrames_dfrEdge (h : DfrInv s) (hr : (pins s).rst = false) :
    heldFrames s ++ completedBy (dfrNext s) = handedNow s ++ heldFrames (dfrEdge s) := by
  rw [dfrEdge_of_not_rst hr]
  simp only [heldFrames, completedBy, handedNow]
  cases hov : s.ov with
  | false =>
    have htake : take s = false := by simp [take, hov]
    cases hdone : (dfrNext s).2 <;> simp [htake]
  | true =>
    cases hdone : (dfrNext s).2 with
    | true => simp [take_of_completes h hdone hov]
    | false => cases htake : take s <;> simp

/-! ## The invariant -/

/-- A step keeps the invariant (R115, R34, R37 to R39). -/
theorem inv_of_step (h : Inv s) (hx : step s = .next t) : Inv t := by
  obtain ⟨b, -, rfl⟩ := eq_bothEdges_of_step h.dfr hx
  have hdfr := dfrInv_dfrEdge h.dfr
  have hprj : PrjInv (prjEdge s) := by
    cases hr : (pins s).rst with
    | true =>
      rw [prjEdge, if_pos hr]
      exact ⟨fun _ => rfl, nofun, nofun, by simp⟩
    | false => exact prjInv_of_move h.prj (prjMove_prjEdge hr)
  exact ⟨⟨hdfr.tlen, hdfr.st, hdfr.seek1, hdfr.seek2, hdfr.collect, hdfr.held⟩,
    ⟨hprj.pvIdle, hprj.header, hprj.pulse, hprj.cause⟩⟩

/-! ## The record of the run -/

/-- One edge more of a run of DFR_STEP: the recognizer's part of R111. -/
theorem dfrRun_eventsNow {r : DfrRegs} {es : List DfrEvent} {frames : List Frame}
    (h : dfrRun r es = (dfrRegs s, frames)) :
    dfrRun r (es ++ eventsNow s) = ((dfrNext s).1, frames ++ completedBy (dfrNext s)) := by
  cases hacc : acc s with
  | true => simp only [eventsNow, dfrNext, hacc, if_true, dfrRun_snoc_byte, h]
  | false =>
    cases hs : (pins s).sclr <;>
      simp [eventsNow, dfrNext, hacc, hs, dfrRun_snoc_sclr, h, completedBy]

/-- A parameter setting changes nothing at an edge with rst = 0 (R73). -/
theorem build_of_not_rst {b : Build} (hr : (pins s).rst = false) (hb : admitParams s = .ok b) :
    b = s.build := by
  obtain ⟨-, hb⟩ | ⟨p, -, -, hb⟩ | ⟨p, -, -, hrst, -⟩ := admitParams_eq_ok.1 hb
  · exact hb
  · exact hb
  · exact absurd (hr.symm.trans hrst) (by decide)

/-- The points still to come after an edge with rst = 0 are those of PRJ's registers. -/
theorem pendingPoints_bothEdges (hr : (pins s).rst = false) :
    pendingPoints (bothEdges s.build s) = pendingPoints (prjEdge s) := by
  rw [pendingPoints, pendingPoints, build_of_move (prjMove_prjEdge hr)]
  rfl

/-- A step keeps the record in agreement with the transaction level (R117, R70, R156). -/
theorem recordInv_of_step (h : Inv s) (hrec : RecordInv s) (hx : step s = .next t) : RecordInv t := by
  obtain ⟨b, hb, rfl⟩ := eq_bothEdges_of_step h.dfr hx
  cases hr : (pins s).rst with
  | true =>
    have htrace : (bothEdges b s).trace = Trace.empty := if_pos hr
    have hov : (bothEdges b s).ov = false := by simp [bothEdges, dfrEdge, hr]
    have hpst : (bothEdges b s).pst = .idle := by simp [bothEdges, prjEdge, hr]
    have hregs : dfrRegs (bothEdges b s) = resetDfrRegs (Config.resetArray .buf s.tick) := by
      simp [bothEdges, dfrEdge, hr, dfrRegs, resetDfrRegs]
    refine ⟨⟨Config.resetArray .buf s.tick, ?_⟩, ?_, ?_⟩
    · rw [htrace, hregs]
      rfl
    · simp [htrace, Trace.empty, heldFrames, hov]
    · simp [htrace, Trace.empty, pendingPoints, hpst]
  | false =>
    obtain rfl := build_of_not_rst hr hb
    obtain ⟨⟨buf, hframes⟩, hhandOff, hpoints⟩ := hrec
    have htrace : (bothEdges s.build s).trace = _ := if_neg (by simp [hr])
    have hregs : dfrRegs (bothEdges s.build s) = (dfrNext s).1 := by
      simp [bothEdges, dfrEdge_of_not_rst hr, dfrRegs]
    refine ⟨⟨buf, ?_⟩, ?_, ?_⟩
    · rw [htrace, hregs]
      exact dfrRun_eventsNow hframes
    · calc
        (bothEdges s.build s).trace.completed = s.trace.completed ++ completedBy (dfrNext s) := by
          rw [htrace]
        _ = s.trace.handed ++ (handedNow s ++ heldFrames (dfrEdge s)) := by
          rw [hhandOff, List.append_assoc, heldFrames_dfrEdge h.dfr hr]
        _ = (bothEdges s.build s).trace.handed ++ heldFrames (bothEdges s.build s) := by
          rw [htrace, ← List.append_assoc]
          rfl
    · calc
        (bothEdges s.build s).trace.points ++ pendingPoints (bothEdges s.build s) =
            s.trace.points ++ (pointsNow s ++ pendingPoints (prjEdge s)) := by
          rw [htrace, pendingPoints_bothEdges hr, List.append_assoc]
        _ = s.trace.admitted.flatMap (framePoints s.build.params) ++
            (admittedNow s).flatMap (framePoints s.build.params) := by
          rw [points_of_move (prjMove_prjEdge hr), ← List.append_assoc, hpoints]
        _ = (bothEdges s.build s).trace.admitted.flatMap (framePoints s.build.params) := by
          rw [htrace, List.flatMap_append]

end Sys2Proof.Laws
end

section
/-! The frame channel of the composed MLFSP (43_top.md R200) and the statements of R201, R203 and R204. -/

namespace Sys2Proof.Laws

open Sys2Proof.Machine Sys2Proof.Safety

variable {s t : State}

/-! ## The composed frame channel -/

/-- The tap is 1 while a frame is held and PRJ is idle, but during rst (R201, R140). -/
theorem monValid_iff : monValid s = true ↔ s.ov = true ∧ (pins s).rst = false ∧ s.pst = .idle := by
  simp [monValid, fiReady]

/-- Composed, PRJ accepts a frame exactly where the tap is 1. -/
theorem accf_composed (hw : s.wiring = .composed) : accf s = monValid s := by
  simp only [accf, fiValid, hw, monValid]

/-- Composed, DFR's frame is taken exactly where the tap is 1. -/
theorem take_composed (hw : s.wiring = .composed) : take s = monValid s := by
  simp only [take, foReady, hw, monValid, fiReady]
  cases (pins s).rst <;> simp

/-- Composed, PRJ is offered the held frame. -/
theorem unpack_fiData_composed (hw : s.wiring = .composed) (hov : s.ov = true) :
    unpack (fiData s) = s.ob := by
  simp only [fiData, hw, foData_of_ov hov, unpack_pack]

/-- Composed, the held frame passes the check (R203): its length is always 60, and R115 gives its header. -/
theorem offeredCause_composed (h : DfrInv s) (hw : s.wiring = .composed) (hov : s.ov = true) :
    offeredCause s = 0 := by
  obtain ⟨h0, h1⟩ := h.held hov
  rw [offeredCause, unpack_fiData_composed hw hov, checkCause_eq_zero_iff]
  exact ⟨by simp only [fiLen, hw], h1, h0⟩

/-- Composed, no accepted frame has a cause. -/
theorem offeredCause_of_accf (h : DfrInv s) (hw : s.wiring = .composed) (ha : accf s = true) :
    offeredCause s = 0 := by
  rw [accf_composed hw, monValid_iff] at ha
  exact offeredCause_composed h hw ha.1

/-- Composed, PRJ admits the frame that DFR hands off, at the same edge (R200). -/
theorem admittedNow_composed (h : DfrInv s) (hw : s.wiring = .composed) :
    admittedNow s = handedNow s := by
  rw [admittedNow, handedNow, accf_composed hw, take_composed hw]
  cases hm : monValid s with
  | false => simp
  | true =>
    obtain ⟨hov, -⟩ := monValid_iff.1 hm
    simp [offeredCause_composed h hw hov, unpack_fiData_composed hw hov]

/-- Where the tap is 1, the edge moves the held frame to PRJ. -/
theorem prjEdge_of_monValid (h : DfrInv s) (hw : s.wiring = .composed) (hm : monValid s = true) :
    (prjEdge s).pst = .run ∧ (prjEdge s).pf = s.ob := by
  obtain ⟨hov, hr, -⟩ := monValid_iff.1 hm
  rw [← unpack_fiData_composed hw hov]
  exact captures_of_move (prjMove_prjEdge hr) ((accf_composed hw).trans hm)
    (offeredCause_composed h hw hov)

/-- Composed, an edge sets no error flag (R203). -/
theorem errorFree_prjEdge (h : DfrInv s) (hw : s.wiring = .composed) (he : ErrorFree s) :
    ErrorFree (prjEdge s) := by
  cases hr : (pins s).rst with
  | true => simp [prjEdge, hr, ErrorFree]
  | false => exact errorFree_of_move he (prjMove_prjEdge hr) (offeredCause_of_accf h hw)

/-! ## PRJ_MALFORMED -/

/-- PRJ_MALFORMED is an operation of an edge only where PRJ accepts a frame that has a cause (R142). -/
theorem cause_of_malformed_selected {len : BitVec 7} {b1 b0 : Byte}
    (h : Instr.prjMalformed len b1 b0 ∈ selected s) : accf s = true ∧ offeredCause s ≠ 0 := by
  cases hr : (pins s).rst with
  | true => simp [selected_of_rst hr] at h
  | false =>
    rw [selected_of_not_rst hr, List.mem_append, List.mem_append] at h
    obtain h | h | h := h
    · rw [prjOperations, frameOperation_offered, pointOperation] at h
      split_ifs at h <;> simp_all
    · simp [takeOperations] at h
    · rw [dfrOperations, dfrOperation] at h
      split_ifs at h <;> simp_all

/-- PRJ alone, from reset, with an all-zero frame of length 0 offered. -/
def strayFrame : State :=
  { State.reset with wiring := .unitsAlone, env := [{ Pins.idle with fiValid := true }] }

/-- Its reset registers meet the invariant. -/
theorem inv_strayFrame : Inv strayFrame :=
  ⟨⟨rfl, .inl rfl, fun _ => rfl, nofun, nofun, nofun⟩, ⟨fun _ => rfl, nofun, nofun, by decide⟩⟩

/-- PRJ refuses the stray frame for both causes. -/
theorem prjEdge_strayFrame :
    prjEdge strayFrame = { strayFrame with errp := true, errs := true, errc := 3 } := by
  have hcause : offeredCause strayFrame = 3 := by
    rw [offeredCause_eq]
    decide
  have hidle : (pins strayFrame).rst = false ∧ strayFrame.pst = .idle ∧ accf strayFrame = true := by
    decide
  obtain ⟨hr, hp, ha⟩ := hidle
  simp only [prjEdge, hr, hp, ha, hcause]
  rfl

/-- Settles O50: an accepted frame has no cause (`offeredCause_of_accf`), where the tap is 1 PRJ captures the
held frame (`prjEdge_of_monValid`), and PRJ alone can be offered `strayFrame`. -/
theorem composedNeverMalformed : Obligations.ComposedNeverMalformed := by
  refine ⟨fun s t h hw he hx => ?_, fun s t h hw hx => ?_, ?_⟩
  · obtain ⟨b, -, rfl⟩ := eq_bothEdges_of_step h.dfr hx
    refine ⟨offeredCause_of_accf h.dfr hw, fun len b1 b0 hmem => ?_, errorFree_prjEdge h.dfr hw he⟩
    obtain ⟨ha, hc⟩ := cause_of_malformed_selected hmem
    exact hc (offeredCause_of_accf h.dfr hw ha)
  · obtain ⟨b, -, rfl⟩ := eq_bothEdges_of_step h.dfr hx
    refine ⟨⟨fun hm => ?_, fun ⟨hov, hp, hrun, _⟩ => ?_⟩, Bool.and_eq_true_iff, rfl, fun hm => ?_⟩
    · obtain ⟨hov, -, hp⟩ := monValid_iff.1 hm
      exact ⟨hov, hp, prjEdge_of_monValid h.dfr hw hm⟩
    · refine monValid_iff.2 ⟨hov, ?_, hp⟩
      rw [← Bool.not_eq_true]
      intro hr
      rw [show (bothEdges b s).pst = (prjEdge s).pst from rfl, prjEdge, if_pos hr] at hrun
      cases hrun
    · exact foData_of_ov (monValid_iff.1 hm).1
  · refine ⟨strayFrame, bothEdges Build.default strayFrame, inv_strayFrame, rfl, ⟨rfl, rfl, rfl⟩,
      step_eq_bothEdges inv_strayFrame.dfr rfl, ?_⟩
    rw [bothEdges, prjEdge_strayFrame]
    exact ⟨rfl, rfl, by decide⟩

/-! ## End to end -/

/-- A step keeps the agreement of the admitted frames with those handed off (R200, R203). -/
theorem composedRecord_of_step (h : Inv s) (hrec : ComposedRecord s) (hx : step s = .next t) :
    ComposedRecord t := by
  obtain ⟨b, -, rfl⟩ := eq_bothEdges_of_step h.dfr hx
  intro (hw : s.wiring = .composed)
  change (edgeRecord s).admitted = (edgeRecord s).handed
  rw [edgeRecord]
  split
  · rfl
  · simp only [hrec hw, admittedNow_composed h.dfr hw]

/-- What a step keeps holds after any number of steps. -/
theorem run_keeps {M : Host.Core} {P : M.State → Prop}
    (hstep : ∀ s t, P s → M.step s = .next t → P t) (n : Nat) :
    ∀ {s t}, P s → M.run n s = .next t → P t := by
  induction n with
  | zero =>
    intro s t hs hx
    cases hx
    exact hs
  | succ n ih =>
    intro s t hs hx
    rw [Host.Core.run] at hx
    split at hx
    · exact ih (hstep _ _ hs ‹_›) hx
    · cases hx
    · cases hx

/-- A state of the composed MLFSP that the rules allow, with a record that agrees. -/
structure ComposedRun (s : State) : Prop where
  inv : Inv s
  wiring : s.wiring = .composed
  record : RecordInv s
  composed : ComposedRecord s

/-- The reset state, under any build and inputs. -/
theorem composedRun_reset (env : List Pins) (b : Build) :
    ComposedRun { State.reset with env := env, build := b } where
  inv := ⟨⟨rfl, .inl rfl, fun _ => rfl, nofun, nofun, nofun⟩,
    ⟨fun _ => rfl, nofun, nofun, nofun, fun hc => absurd rfl hc⟩⟩
  wiring := rfl
  record := ⟨⟨State.reset.buf, rfl⟩, rfl, rfl⟩
  composed := fun _ => rfl

/-- A step keeps it. -/
theorem composedRun_of_step (h : ComposedRun s) (hx : step s = .next t) : ComposedRun t where
  inv := inv_of_step h.inv hx
  wiring := by
    obtain ⟨b, -, rfl⟩ := eq_bothEdges_of_step h.inv.dfr hx
    exact h.wiring
  record := recordInv_of_step h.inv h.record hx
  composed := composedRecord_of_step h.inv h.composed hx

/-- Every frame that a run from reset completes begins with the header (R116). -/
theorem header_of_completed (buf : Frame) (es : List DfrEvent) :
    ∀ f ∈ (dfrRun (resetDfrRegs buf) es).2, f[0] = hdr0 ∧ f[1] = hdr1 := by
  induction es using List.reverseRecOn with
  | nil => exact nofun
  | append_singleton es e ih =>
    cases e with
    | sclr => rwa [dfrRun_snoc_sclr]
    | byte b =>
      rw [dfrRun_snoc_byte]
      intro f hf
      obtain hf | hf := List.mem_append.1 hf
      · exact ih f hf
      · rw [completedBy] at hf
        split at hf
        · obtain rfl := List.mem_singleton.1 hf
          exact (completed_is_last_bytes ‹_›).2
        · cases hf

/-- PROJECT of a frame that begins with the header gives its 16 points (R156). -/
theorem projected_of_header (p : Params) {f : Frame} (h : f[0] = hdr0 ∧ f[1] = hdr1) :
    projected p f = framePoints p f := by
  obtain ⟨h0, h1⟩ := h
  rw [projected, project, if_pos (checkCause_eq_zero_iff.2 ⟨rfl, h1, h0⟩)]

/-- So no frame of a run from reset is lost to the check (R204). -/
theorem endToEnd_eq (p : Params) (buf : Frame) (es : List DfrEvent) :
    endToEnd p buf es = (dfrRun (resetDfrRegs buf) es).2.flatMap (framePoints p) :=
  List.flatMap_congr fun f hf => projected_of_header p (header_of_completed buf es f hf)

/-- The points of the frames completed so far: those transferred, those PRJ has still to offer, and those of
the held frame (R204). -/
theorem ComposedRun.points_append_rest (h : ComposedRun t) (buf : Frame) :
    t.trace.points ++ (pendingPoints t ++ (heldFrames t).flatMap (framePoints t.build.params)) =
      endToEnd t.build.params buf t.trace.accepted := by
  obtain ⟨buf', hframes⟩ := h.record.frames
  have hcompleted : (dfrRun (resetDfrRegs buf) t.trace.accepted).2 = t.trace.completed := by
    rw [(dfrRun_reset_independent buf buf' _).2, hframes]
  rw [endToEnd_eq, hcompleted, h.record.handOff, List.flatMap_append, ← List.append_assoc,
    h.record.points, h.composed h.wiring]

/-- Settles O52: every run from reset keeps `ComposedRun`, which says what the points transferred lack: those
of the frame in PF and of the held frame, of which there is none where both units are idle. -/
theorem endToEndPoints : Obligations.EndToEndPoints := by
  intro n env b t hx
  have hrun : ComposedRun t :=
    run_keeps (M := core) (fun _ _ => composedRun_of_step) n (composedRun_reset env b) hx
  refine ⟨_, hrun.points_append_rest, fun hp hov => ?_⟩
  simp [pendingPoints, heldFrames, hp, hov]

end Sys2Proof.Laws
end

section
/-! The outputs where rst = 1 and where both units are free, and the statement of 70_reset_and_hazards.md
R233. -/

namespace Sys2Proof.Laws

open Sys2Proof.Machine

variable {s t : State}

/-- in_ready is 0 where rst = 1, whatever the registers hold (R100). -/
theorem inReady_of_rst (hr : (pins s).rst = true) : inReady s = false := by
  rw [inReady, hr, Bool.not_true, Bool.false_and, Bool.false_and]

/-- fi_ready is 0 where rst = 1, in IDLE too (R140). -/
theorem fiReady_of_rst (hr : (pins s).rst = true) : fiReady s = false := by
  rw [fiReady, hr, Bool.not_true, Bool.false_and]

/-- So no hand-off is marked where rst = 1 (R201). -/
theorem monValid_of_rst (hr : (pins s).rst = true) : monValid s = false := by
  rw [monValid, fiReady_of_rst hr, Bool.and_false]

/-- With no frame held, only rst and sclr hold in_ready at 0 (R100). -/
theorem inReady_of_ov (hov : s.ov = false) : inReady s = (!(pins s).rst && !(pins s).sclr) := by
  rw [inReady, hov, Bool.and_false, Bool.false_and, Bool.not_false, Bool.and_true]

/-- In IDLE, only rst holds fi_ready at 0 (R140). -/
theorem fiReady_of_idle (hp : s.pst = .idle) : fiReady s = !(pins s).rst := by
  rw [fiReady, hp, beq_self_eq_true, Bool.and_true]

/-- No point is offered in IDLE, whatever PV holds (R34). -/
theorem ptValid_of_idle (hp : s.pst = .idle) : ptValid s = false := by
  rw [ptValid, hp]
  rfl

/-- Settles O58: in the cycle with rst = 1 the level alone holds the readies at 0 and the flags are registers;
the cycle after it begins with the registers of RESET (O25), where no frame is held and PRJ is idle, so the
readies depend on that cycle's rst and sclr alone. -/
theorem outputsAroundReset : Obligations.OutputsAroundReset := by
  intro s t hr hx
  obtain ⟨b, -, hb, -⟩ := step_eq_next.1 hx
  obtain ⟨_, ht, -, -, -, hov, hdone, hidle, -, -, herrp, herrs, herrc⟩ :=
    resetEdgeGivesResetValues s b hr hb
  obtain rfl := Host.Outcome.next.inj (hx.symm.trans ht)
  refine ⟨⟨inReady_of_rst hr, fiReady_of_rst hr, monValid_of_rst hr, rfl, rfl, rfl, rfl, rfl, rfl⟩,
    hov, hdone, ptValid_of_idle hidle, herrp, herrs, herrc, fun hrst => ⟨?_, fun hsclr => ?_⟩⟩
  · exact (fiReady_of_idle hidle).trans (by rw [hrst, Bool.not_false])
  · exact (inReady_of_ov hov).trans (by rw [hrst, hsclr, Bool.not_false, Bool.and_self])

end Sys2Proof.Laws
end

section
/-! The decoder and the encoder against each other, over the keys of all five formats by their fields, and the
statements of 30_encoding.md R84 to R89. -/

namespace Sys2Proof.Laws

open Sys2Proof.Machine

/-! ## Keys by their fields -/

/-- Every 23-bit word is the key of its three fields (R86). -/
theorem pfkKeyOf_fields (w : BitVec 23) : pfkKeyOf (keyLen w) (keyByte1 w) (keyByte0 w) = w := by
  rw [pfkKeyOf, keyLen, keyByte1, keyByte0,
    BitVec.extractLsb'_append_extractLsb'_eq_extractLsb' (start₁ := 8) (start₂ := 16) rfl,
    BitVec.extractLsb'_append_extractLsb'_eq_extractLsb' (start₁ := 0) (start₂ := 8) rfl,
    BitVec.extractLsb'_eq_self]

/-- Every 6-bit word is the key of its three fields (R88). -/
theorem ptkKeyOf_fields (w : BitVec 6) : ptkKeyOf (keyPv w) (keyPtReady w) (keyK w) = w := by
  revert w
  decide

/-- Every 2-bit word is the key of its two bits (R89). -/
theorem pairKeyOf_fields (w : BitVec 2) : pairKeyOf (w.getLsbD 1) (w.getLsbD 0) = w := by
  revert w
  decide

/-- What holds of the keys written from fields holds of every key. -/
theorem key_by_fields {P : Key → Prop} (dfr : ∀ st idx b, P (.dfr (dfrKeyOf st idx b)))
    (pfk : ∀ len b1 b0, P (.pfk (pfkKeyOf len b1 b0)))
    (ptk : ∀ pv ready k, P (.ptk (ptkKeyOf pv ready k)))
    (ctl : ∀ rst sclr, P (.ctl (pairKeyOf rst sclr)))
    (fox : ∀ ov ready, P (.fox (pairKeyOf ov ready))) (key : Key) : P key := by
  cases key with
  | dfr w => exact dfrKeyOf_fields w ▸ dfr ..
  | pfk w => exact pfkKeyOf_fields w ▸ pfk ..
  | ptk w => exact ptkKeyOf_fields w ▸ ptk ..
  | ctl w => exact pairKeyOf_fields w ▸ ctl ..
  | fox w => exact pairKeyOf_fields w ▸ fox ..

/-- The operation of a control key, if it selects one (R89). -/
theorem decode_ctl_pairKeyOf (rst sclr : Bool) :
    decode (.ctl (pairKeyOf rst sclr)) =
      if rst = true then .ok (.reset sclr)
      else if sclr = true then .ok .dfrSclr else .error .noOperation := by
  simp only [decode, decodeCtl, rowReset_hits, rowSclr_hits]
  cases rst with
  | true => cases sclr <;> rfl
  | false => simp

/-- The operation of a frame-channel key, if it selects one (R89). -/
theorem decode_fox_pairKeyOf (ov ready : Bool) :
    decode (.fox (pairKeyOf ov ready)) =
      if ov = true ∧ ready = true then .ok .dfrFoTake else .error .noOperation := by
  simp only [decode, decodeFox, rowFoTake_hits]

/-! ## Well-formed operands -/

/-- A skipped byte is no first header byte (R85). -/
theorem wf_dfrHdr1Skip {idx : BitVec 6} {b : Byte} :
    (Instr.dfrHdr1Skip idx b).wf = true ↔ b ≠ 0x55 := bne_iff_ne

/-- A byte that fails the second-header check and restarts no frame is neither header byte (R85). -/
theorem wf_dfrHdr2FailSkip {idx : BitVec 6} {b : Byte} :
    (Instr.dfrHdr2FailSkip idx b).wf = true ↔ b ≠ 0xAA ∧ b ≠ 0x55 := by
  rw [Instr.wf, Bool.and_eq_true, bne_iff_ne, bne_iff_ne]

/-- A stored byte is not the 60th (R85). -/
theorem wf_dfrColStore {idx : BitVec 6} {b : Byte} :
    (Instr.dfrColStore idx b).wf = true ↔ idx ≠ 59 := bne_iff_ne

/-- A malformed frame has not the key of PRJ_ACCEPT (R87). -/
theorem wf_prjMalformed {len : BitVec 7} {b1 b0 : Byte} :
    (Instr.prjMalformed len b1 b0).wf = true ↔ ¬(len = 60 ∧ b1 = 0xAA ∧ b0 = 0x55) := by
  rw [Instr.wf, Bool.not_eq_true', ← Bool.not_eq_true, Bool.and_eq_true, Bool.and_eq_true, beq_iff_eq,
    beq_iff_eq, beq_iff_eq, and_assoc]

/-- A point with a next one is not the last (R88). -/
theorem wf_prjPtNext {k : BitVec 4} : (Instr.prjPtNext k).wf = true ↔ k ≠ 15 := bne_iff_ne

/-- A waiting edge takes no point (R88). -/
theorem wf_prjPtWait {pv ready : Bool} {k : BitVec 4} :
    (Instr.prjPtWait pv ready k).wf = true ↔ ¬(pv = true ∧ ready = true) := by
  rw [Instr.wf, Bool.not_eq_true', ← Bool.not_eq_true, Bool.and_eq_true]

/-! ## Encoding after decoding -/

/-- The key is the one the operation is encoded as, and the operation is one its own row selects. -/
def KeyOf (key : Key) (i : Instr) : Prop := encode i = key ∧ i.wf = true

/-- The operation of R85's condition column has the key it was read from. -/
theorem keyOf_dfrOperation (st : BitVec 2) (idx : BitVec 6) (b : Byte) :
    KeyOf (.dfr (dfrKeyOf st idx b)) (dfrOperation st idx b) := by
  obtain rfl | rfl | rfl | rfl := st_cases st
  · rw [dfrOperation, if_pos rfl]
    split_ifs with h55
    · exact ⟨h55 ▸ rfl, rfl⟩
    · exact ⟨rfl, wf_dfrHdr1Skip.2 h55⟩
  · rw [dfrOperation, if_neg (by decide), if_pos rfl]
    split_ifs with hAA h55
    · exact ⟨hAA ▸ rfl, rfl⟩
    · exact ⟨h55 ▸ rfl, rfl⟩
    · exact ⟨rfl, wf_dfrHdr2FailSkip.2 ⟨hAA, h55⟩⟩
  · rw [dfrOperation, if_neg (by decide), if_neg (by decide), if_pos rfl]
    split_ifs with h59
    · exact ⟨h59 ▸ rfl, rfl⟩
    · exact ⟨rfl, wf_dfrColStore.2 h59⟩
  · exact ⟨rfl, rfl⟩

/-- So has the operation of R87. -/
theorem keyOf_frameOperation (len : BitVec 7) (b1 b0 : Byte) :
    KeyOf (.pfk (pfkKeyOf len b1 b0)) (frameOperation len b1 b0) := by
  by_cases hkey : len = 60 ∧ b1 = 0xAA ∧ b0 = 0x55
  · obtain ⟨rfl, rfl, rfl⟩ := hkey
    exact ⟨rfl, rfl⟩
  · rw [frameOperation, if_neg hkey]
    exact ⟨rfl, wf_prjMalformed.2 hkey⟩

/-- So has the operation of R88. -/
theorem keyOf_pointOperation (pv ready : Bool) (k : BitVec 4) :
    KeyOf (.ptk (ptkKeyOf pv ready k)) (pointOperation pv ready k) := by
  by_cases htaken : pv = true ∧ ready = true
  · obtain ⟨rfl, rfl⟩ := htaken
    rw [pointOperation, if_pos ⟨rfl, rfl⟩]
    split_ifs with hk
    · exact ⟨hk ▸ rfl, rfl⟩
    · exact ⟨rfl, wf_prjPtNext.2 hk⟩
  · rw [pointOperation, if_neg htaken]
    exact ⟨rfl, wf_prjPtWait.2 htaken⟩

/-- Settles O2: each format's operation has the key it was read from; the keys of R89 have four values. -/
theorem encodeInvertsDecode : Obligations.EncodeInvertsDecode := by
  intro key i hd
  induction key using key_by_fields with
  | dfr st idx b =>
    cases (decode_dfrKeyOf st idx b).symm.trans hd
    exact keyOf_dfrOperation st idx b
  | pfk len b1 b0 =>
    cases (decode_pfkKeyOf len b1 b0).symm.trans hd
    exact keyOf_frameOperation len b1 b0
  | ptk pv ready k =>
    cases (decode_ptkKeyOf pv ready k).symm.trans hd
    exact keyOf_pointOperation pv ready k
  | ctl rst sclr =>
    rw [decode_ctl_pairKeyOf] at hd
    split_ifs at hd with hrst hsclr <;> cases hd
    · exact ⟨hrst ▸ rfl, rfl⟩
    · rw [Bool.not_eq_true] at hrst
      exact ⟨hrst ▸ hsclr ▸ rfl, rfl⟩
  | fox ov ready =>
    rw [decode_fox_pairKeyOf] at hd
    split_ifs at hd with htake
    cases hd
    obtain ⟨rfl, rfl⟩ := htake
    exact ⟨rfl, rfl⟩

/-! ## Decoding after encoding -/

/-- Settles O1: the operation of the encoded fields, by its format's map; `wf` excludes the earlier rows. -/
theorem decodeInvertsEncode : Obligations.DecodeInvertsEncode := by
  intro i hwf
  cases i with
  | dfrHdr1Match | dfrHdr2Match | dfrHdr2FailResync | dfrColLast | dfrRsvSt3 =>
    exact decode_dfrKeyOf ..
  | dfrHdr1Skip idx b =>
    rw [encode, decode_dfrKeyOf, dfrOperation, if_pos rfl, if_neg (wf_dfrHdr1Skip.1 hwf)]
  | dfrHdr2FailSkip idx b =>
    obtain ⟨hAA, h55⟩ := wf_dfrHdr2FailSkip.1 hwf
    rw [encode, decode_dfrKeyOf, dfrOperation, if_neg (by decide), if_pos rfl, if_neg hAA, if_neg h55]
  | dfrColStore idx b =>
    rw [encode, decode_dfrKeyOf, dfrOperation, if_neg (by decide), if_neg (by decide), if_pos rfl,
      if_neg (wf_dfrColStore.1 hwf)]
  | prjAccept => exact decode_pfkKeyOf ..
  | prjMalformed len b1 b0 =>
    rw [encode, decode_pfkKeyOf, frameOperation, if_neg (wf_prjMalformed.1 hwf)]
  | prjPtLast => exact decode_ptkKeyOf ..
  | prjPtNext k =>
    rw [encode, decode_ptkKeyOf, pointOperation, if_pos ⟨rfl, rfl⟩, if_neg (wf_prjPtNext.1 hwf)]
  | prjPtWait pv ready k =>
    rw [encode, decode_ptkKeyOf, pointOperation, if_neg (wf_prjPtWait.1 hwf)]
  | reset sclr => exact decode_ctl_rst sclr
  | dfrSclr => exact decode_ctl_pairKeyOf ..
  | dfrFoTake => exact decode_fox_pairKeyOf ..

/-! ## The tables -/

/-- The first row that the key of a well-formed operation hits is the operation's own (R84). -/
theorem encodesOwnRow (i : Instr) : EncodesOwnRow.Statement i := by
  cases i with
  | dfrHdr1Match idx => exact EncodesOwnRow.dfrHdr1Match idx
  | dfrHdr1Skip idx b => exact EncodesOwnRow.dfrHdr1Skip idx b
  | dfrHdr2Match idx => exact EncodesOwnRow.dfrHdr2Match idx
  | dfrHdr2FailResync idx => exact EncodesOwnRow.dfrHdr2FailResync idx
  | dfrHdr2FailSkip idx b => exact EncodesOwnRow.dfrHdr2FailSkip idx b
  | dfrColLast b => exact EncodesOwnRow.dfrColLast b
  | dfrColStore idx b => exact EncodesOwnRow.dfrColStore idx b
  | dfrRsvSt3 idx b => exact EncodesOwnRow.dfrRsvSt3 idx b
  | prjAccept => exact EncodesOwnRow.prjAccept
  | prjMalformed len b1 b0 => exact EncodesOwnRow.prjMalformed len b1 b0
  | prjPtLast => exact EncodesOwnRow.prjPtLast
  | prjPtNext k => exact EncodesOwnRow.prjPtNext k
  | prjPtWait pv ready k => exact EncodesOwnRow.prjPtWait pv ready k
  | reset sclr => exact EncodesOwnRow.reset sclr
  | dfrSclr => exact EncodesOwnRow.dfrSclr
  | dfrFoTake => exact EncodesOwnRow.dfrFoTake

/-- A key that selects no operation hits no row: it is a control key or a frame-channel key. -/
theorem tableMnemonic_of_error {key : Key} {e : Reject} (h : decode key = .error e) :
    tableMnemonic key = none := by
  induction key using key_by_fields with
  | dfr st idx b => cases (decode_dfrKeyOf st idx b).symm.trans h
  | pfk len b1 b0 => cases (decode_pfkKeyOf len b1 b0).symm.trans h
  | ptk pv ready k => cases (decode_ptkKeyOf pv ready k).symm.trans h
  | ctl rst sclr =>
    rw [decode_ctl_pairKeyOf] at h
    split_ifs at h
    simp_all [tableMnemonic, ctlTable, firstHit, rowReset_hits, rowSclr_hits]
  | fox ov ready =>
    rw [decode_fox_pairKeyOf] at h
    split_ifs at h
    simp_all [tableMnemonic, foxTable, firstHit, rowFoTake_hits]

/-- Settles O4: the four maps by their conditions; a key that decodes is the key of its operation (O2), which
hits the operation's own row first, and a key that does not hits none. -/
theorem otherMapsAreTheTable : Obligations.OtherMapsAreTheTable := by
  refine ⟨decode_pfkKeyOf, decode_ptkKeyOf, decode_ctl_pairKeyOf, decode_fox_pairKeyOf, fun key => ?_⟩
  rw [decodeOk]
  cases hd : decode key with
  | ok i =>
    obtain ⟨rfl, hwf⟩ := encodeInvertsDecode key i hd
    exact encodesOwnRow i hwf
  | error e => exact tableMnemonic_of_error hd

/-- Settles O5: each key is one of its format's map, written from its fields. -/
theorem sampleKeysDecode : Obligations.SampleKeysDecode :=
  ⟨decode_dfrKeyOf 1 1 0xAA, decode_dfrKeyOf 1 1 0xAB, decode_dfrKeyOf 2 58 0, decode_dfrKeyOf 2 59 7,
    decode_dfrKeyOf 3 5 0x12, decode_pfkKeyOf 60 0xAA 0x55, decode_pfkKeyOf 59 0xAA 0x55,
    decode_ptkKeyOf true true 3, decode_ptkKeyOf true false 15⟩

end Sys2Proof.Laws
end

section
/-! Single operations and edges that run one operation: the statements of 40_deframer.md R109, R110, R113 and
70_reset_and_hazards.md R230 to R232 and R237. -/

namespace Sys2Proof.Laws

open Sys2Proof.Machine Sys2Proof.Safety

variable {s t : State}

/-! ## One operation -/

/-- Settles O14: the store is the operation's only stop (`storeBuf_of_ge`). -/
theorem storeOutsideArrayStops : Obligations.StoreOutsideArrayStops := by
  intro idx b s hidx
  have hstore (c : Byte) (u : State) : storeBuf s.idx c u = .fault .noSuchEntry := storeBuf_of_ge hidx
  refine ⟨?_, fun hlt => ?_⟩
  · rw [exec, execDfrHdr2Match, hstore]
    rfl
  · rw [exec, execDfrColStore, if_pos hlt, hstore]
    rfl

/-- Settles O17: the soft clear writes ST, IDX and DONE. -/
theorem sclrDiscardsPartialFrame : Obligations.SclrDiscardsPartialFrame := by
  intro s
  exact ⟨decode_ctl_pairKeyOf .., _, rfl, rfl, rfl, rfl, rfl, rfl, ⟨rfl, rfl⟩,
    ⟨rfl, rfl, rfl, rfl, rfl, rfl, rfl⟩, ⟨rfl, rfl, rfl, rfl⟩, rfl⟩

/-- Settles O18: the hand-off writes OV alone (`handOff`). -/
theorem foTakeHandsOffHeldFrame : Obligations.FoTakeHandsOffHeldFrame := by
  intro s
  exact ⟨decode_fox_pairKeyOf .., handOff s, rfl, rfl, rfl, rfl, rfl, rfl, rfl, rfl,
    ⟨rfl, rfl, rfl, rfl, rfl, rfl, rfl⟩, ⟨rfl, rfl, rfl, rfl⟩, rfl⟩

/-- Settles O24: RESET is `resetRegisters`. -/
theorem resetClearsRegisters : Obligations.ResetClearsRegisters := by
  intro sclr s
  exact ⟨decode_ctl_rst sclr, resetRegisters s, rfl, rfl, rfl, rfl, rfl, rfl, rfl, rfl, rfl, rfl, rfl, rfl,
    ⟨rfl, rfl, rfl, rfl⟩, rfl⟩

/-- Settles O28: the operation makes the move of DFR_STEP (`exec_dfrOperation`); what that leaves in OB and OV
depends on done. -/
theorem selectedOperationIsDfrStep : Obligations.SelectedOperationIsDfrStep := by
  intro s b i h hd
  cases (decode_dfrKeyOf s.st s.idx b).symm.trans hd
  refine ⟨_, exec_dfrOperation (regsInv_dfrRegs h) b, rfl, fun hdone => ?_, fun hdone => ?_,
    rfl, rfl, rfl, rfl, rfl, rfl, rfl⟩
  · replace hdone : (dfrStep (dfrRegs s) b).2 = true := hdone
    simp [recognized, hdone]
  · replace hdone : (dfrStep (dfrRegs s) b).2 = false := hdone
    simp [recognized, SameHeld, hdone]

/-! ## One edge -/

/-- A step whose parameter setting is admitted: the selected operations, and then the next cycle. -/
theorem step_of_admitted {b : Build} (hb : admitParams s = .ok b) :
    step s = andThen (execAll (selected s) (beginEdge s)) fun t => .next (endEdge b t) := by
  rw [step, edge, hb]

/-- A step whose parameter setting is refused. -/
theorem step_of_refused {e : Refusal} (he : admitParams s = .error e) : step s = .refused e := by
  rw [step, edge, he]

/-- Settles O6: the edge runs the list of one operation. -/
theorem stepRunsDecodedOperation : Obligations.StepRunsDecodedOperation := by
  intro s t b i hb hi
  have hstep : step s = andThen (exec i (beginEdge s)) fun t => .next (endEdge b t) := by
    rw [step_of_admitted hb, selected, hi, execAll_singleton]
  refine ⟨fun hx => ?_, fun e hx => ?_⟩ <;> rw [hstep, hx] <;> rfl

/-- A setting that differs from the build is refused while rst = 0 (R237). -/
theorem admitParams_change {p : Params} (hp : (pins s).params = some p) (hne : p ≠ s.build.params)
    (hr : (pins s).rst = false) : admitParams s = .error .parameterChange := by
  simp [admitParams, hp, hne, hr]

/-- An illegal setting that differs from the build is refused while rst = 1 (R9). -/
theorem admitParams_illegal {p : Params} (hp : (pins s).params = some p) (hne : p ≠ s.build.params)
    (hr : (pins s).rst = true) (hlegal : legalParams p = false) :
    admitParams s = .error .illegalBuild := by
  simp [admitParams, hp, hne, hr, hlegal]

/-- Settles O57: the two refusals of `admitParams`, and each illegal value fails its conjunct of
`legalParams`. -/
theorem parameterSettingsRefused : Obligations.ParameterSettingsRefused := by
  refine ⟨fun s p hp hne => ⟨fun hr => step_of_refused (admitParams_change hp hne hr),
    fun hr hlegal => step_of_refused (admitParams_illegal hp hne hr hlegal)⟩, ?_⟩
  rintro p (hsign | hzero | htrig | ⟨h14, h12⟩)
  · simp [legalParams, hsign]
  · simp [legalParams, hzero]
  · simp [legalParams, htrig]
  · simp [legalParams, h14, h12]

end Sys2Proof.Laws
end

section
/-! The loader `placeKey`, the model's own (log 12): the edge after it runs the loaded key's operation alone. -/

namespace Sys2Proof.Laws

open Sys2Proof.Machine Sys2Proof.Safety

variable {s : State}

/-! ## Edges at which a unit has no operation -/

/-- PRJ is offered no frame where none is held and the host offers none, in both arrangements (R200). -/
theorem accf_of_unoffered (hov : s.ov = false) (hf : (pins s).fiValid = false) : accf s = false := by
  cases hw : s.wiring <;> simp [accf, fiValid, hw, hov, hf]

/-- No byte is accepted where none is offered (R100). -/
theorem acc_of_unoffered (hv : (pins s).inValid = false) : acc s = false := by
  rw [acc, hv, Bool.false_and]

/-- In IDLE, PRJ has no operation where it accepts no frame. -/
theorem prjOperations_of_quiet (ha : accf s = false) (hp : s.pst = .idle) : prjOperations s = [] := by
  simp [prjOperations, ha, hp]

/-- A held frame stays where it is not taken. -/
theorem takeOperations_of_quiet (htake : take s = false) : takeOperations s = [] := by
  simp [takeOperations, htake]

/-- Nothing is taken where nothing is held (R113). -/
theorem take_of_ov (hov : s.ov = false) : take s = false := by
  rw [take, hov, Bool.and_false, Bool.false_and]

/-- Nothing is taken where nobody is ready (R113). -/
theorem take_of_foReady (hready : foReady s = false) : take s = false := by
  rw [take, hready, Bool.and_false]

/-- In RUN, DFR's frame finds nobody ready where the host is not, in both arrangements (R140, R200). -/
theorem foReady_of_run (hp : s.pst = .run) (hf : (pins s).foReady = false) : foReady s = false := by
  cases hw : s.wiring <;> simp [foReady, fiReady, hw, hp, hf]

/-! ## One format each -/

/-- The two frame bytes of a PRJ key, on the bus that the loader makes of its low 16 bits. -/
theorem busByte_setWidth (w : BitVec 23) {j : Nat} (hj : j < 2) :
    busByte ((w.setWidth 16).setWidth 480) j = w.extractLsb' (8 * j) 8 := by
  refine BitVec.eq_of_getLsbD_eq fun m hm => ?_
  have hlow : 8 * j + m < 16 := by omega
  have hbus : 8 * j + m < 480 := by omega
  simp only [busByte_bit _ _ _ hm, BitVec.getLsbD_setWidth, BitVec.getLsbD_extractLsb', hm, hlow, hbus,
    decide_true, Bool.true_and]

/-- The edge after the loader runs the operation of the loaded byte key alone. -/
theorem selected_placeKey_dfr (w : BitVec 16) (s : State) :
    selected (placeKey (.dfr w) s) = [dfrOperation (w.extractLsb' 14 2) (keyIdx w) (keyByte w)] := by
  have hacc : acc (placeKey (.dfr w) s) = true := by
    rw [acc, inReady_of_ov rfl]
    rfl
  rw [selected_of_not_rst rfl, prjOperations_of_quiet (accf_of_unoffered rfl rfl) rfl,
    takeOperations_of_quiet (take_of_ov rfl), dfrOperations_of_acc hacc]
  rfl

/-- So it does for a loaded frame key. -/
theorem selected_placeKey_pfk (w : BitVec 23) (s : State) :
    selected (placeKey (.pfk w) s) = [frameOperation (keyLen w) (keyByte1 w) (keyByte0 w)] := by
  have hdata : fiData (placeKey (.pfk w) s) = (w.setWidth 16).setWidth 480 := rfl
  have hprj : prjOperations (placeKey (.pfk w) s) =
      [frameOperation (keyLen w) (keyByte1 w) (keyByte0 w)] := by
    rw [prjOperations, hdata, busByte_setWidth w (by decide), busByte_setWidth w (by decide)]
    rfl
  rw [selected_of_not_rst rfl, hprj, takeOperations_of_quiet (take_of_foReady rfl),
    dfrOperations_of_quiet (acc_of_unoffered rfl) rfl]
  rfl

/-- So it does for a loaded point key. -/
theorem selected_placeKey_ptk (w : BitVec 6) (s : State) :
    selected (placeKey (.ptk w) s) = [pointOperation (keyPv w) (keyPtReady w) (keyK w)] := by
  have hprj : prjOperations (placeKey (.ptk w) s) =
      [pointOperation (keyPv w) (keyPtReady w) (keyK w)] := by
    rw [prjOperations, accf_of_run rfl]
    rfl
  rw [selected_of_not_rst rfl, hprj, takeOperations_of_quiet (take_of_foReady (foReady_of_run rfl rfl)),
    dfrOperations_of_quiet (acc_of_unoffered rfl) rfl]
  rfl

/-- A loaded control key runs RESET, DFR_SCLR or nothing. -/
theorem selected_placeKey_ctl (w : BitVec 2) (s : State) :
    selected (placeKey (.ctl w) s) =
      if w.getLsbD 1 = true then [.reset (w.getLsbD 0)]
      else if w.getLsbD 0 = true then [.dfrSclr] else [] := by
  by_cases hrst : w.getLsbD 1 = true
  · rw [if_pos hrst, selected_of_rst (s := placeKey (.ctl w) s) hrst]
    rfl
  · have hr : (pins (placeKey (.ctl w) s)).rst = false := Bool.eq_false_of_not_eq_true hrst
    rw [if_neg hrst, selected_of_not_rst hr, prjOperations_of_quiet (accf_of_unoffered rfl rfl) rfl,
      takeOperations_of_quiet (take_of_ov rfl), dfrOperations, acc_of_unoffered rfl]
    exact List.append_nil _

/-- A loaded frame-channel key runs DFR_FO_TAKE or nothing. -/
theorem selected_placeKey_fox (w : BitVec 2) (s : State) :
    selected (placeKey (.fox w) s) =
      if w.getLsbD 1 = true ∧ w.getLsbD 0 = true then [.dfrFoTake] else [] := by
  have htake : take (placeKey (.fox w) s) = (w.getLsbD 1 && w.getLsbD 0) := rfl
  rw [selected_of_not_rst rfl, prjOperations_of_quiet rfl rfl,
    dfrOperations_of_quiet (acc_of_unoffered rfl) rfl, takeOperations, htake]
  simp only [Bool.and_eq_true, List.nil_append, List.append_nil]

/-- The edge after the loader runs the operation of the loaded key, if it has one, and no other (log 12). -/
theorem selected_placeKey {key : Key} {i : Instr} (hd : decode key = .ok i) (s : State) :
    selected (placeKey key s) = [i] := by
  cases key with
  | dfr w =>
    rw [← dfrKeyOf_fields w, decode_dfrKeyOf] at hd
    rw [selected_placeKey_dfr, Except.ok.inj hd]
  | pfk w =>
    rw [← pfkKeyOf_fields w, decode_pfkKeyOf] at hd
    rw [selected_placeKey_pfk, Except.ok.inj hd]
  | ptk w =>
    rw [← ptkKeyOf_fields w, decode_ptkKeyOf] at hd
    rw [selected_placeKey_ptk, Except.ok.inj hd]
  | ctl w =>
    rw [← pairKeyOf_fields w, decode_ctl_pairKeyOf] at hd
    rw [selected_placeKey_ctl]
    split_ifs at hd ⊢ <;> cases hd <;> rfl
  | fox w =>
    rw [← pairKeyOf_fields w, decode_fox_pairKeyOf] at hd
    rw [selected_placeKey_fox]
    split_ifs at hd ⊢
    cases hd
    rfl

/-- The loader makes no parameter setting. -/
theorem admitParams_placeKey (key : Key) (s : State) : admitParams (placeKey key s) = .ok s.build := by
  cases key <;> rfl

/-- Settles O7: `selected_placeKey`, and the loader's inputs make no parameter setting. -/
theorem placedKeyRunsAlone : Obligations.PlacedKeyRunsAlone := fun s key _ hd =>
  ⟨selected_placeKey hd s, admitParams_placeKey key s⟩

end Sys2Proof.Laws
end

section
/-! What the machine keeps and what it shows: the statements about every step (40_deframer.md R115, R117,
20_memory.md R68, R70), about the hidden registers (10_state.md R42), and about the bytes that no rule
interprets (30_encoding.md R91). -/

namespace Sys2Proof.Laws

open Sys2Proof.Machine Sys2Proof.Safety

variable {s t : State}

/-! ## Every step -/

/-- Settles O45: `inv_of_step`. -/
theorem stepKeepsInv : Obligations.StepKeepsInv := fun _ _ => inv_of_step

/-- Settles O51: `recordInv_of_step`, and composed `composedRecord_of_step`. -/
theorem stepKeepsRecord : Obligations.StepKeepsRecord := fun _ _ h hrec hcomp hx =>
  ⟨recordInv_of_step h hrec hx, composedRecord_of_step h hcomp hx⟩

/-- Settles O46: the state after reset is the start of a composed run (`composedRun_reset`). -/
theorem resetMeetsInv : Obligations.ResetMeetsInv := by
  have hreset := composedRun_reset [] Build.default
  exact ⟨hreset.inv, hreset.record, hreset.composed, rfl, rfl, rfl⟩

/-- Settles O47: the step is `bothEdges`, under the admitted build. -/
theorem stepCompletesUnderInv : Obligations.StepCompletesUnderInv := fun _ _ h hb =>
  ⟨_, step_eq_bothEdges h.dfr hb, rfl⟩

/-! ## Offers -/

/-- A point is offered in RUN with PV = 1 (R150). -/
theorem ptValid_iff : ptValid s = true ↔ s.pst = .run ∧ s.pv = true := by
  simp [ptValid]

/-- PRJ waits where its point is not taken (R154). -/
theorem prjEdge_of_untaken (hr : (pins s).rst = false) (hp : s.pst = .run)
    (huntaken : ¬(s.pv = true ∧ (pins s).ptReady = true)) :
    prjEdge s = { s with pv := s.pv || draw s, errp := false } := by
  simp [prjEdge, hr, hp, huntaken]

/-- A held frame that is not taken stays in OB: no other frame completes meanwhile (R68, R100). -/
theorem held_of_untaken (h : DfrInv s) (hr : (pins s).rst = false) (hov : s.ov = true)
    (htake : take s = false) : (dfrEdge s).ov = true ∧ (dfrEdge s).ob = s.ob := by
  have hdone : (dfrNext s).2 = false := by
    by_contra hd
    have htaken := take_of_completes h (Bool.eq_true_of_not_eq_false hd) hov
    exact absurd (htake.symm.trans htaken) (by decide)
  simp [dfrEdge_of_not_rst hr, hdone, hov, htake]

/-- Settles O48: PRJ waits (`prjEdge_of_untaken`) and DFR holds its frame (`held_of_untaken`), so that the
payloads are computed from the same registers. -/
theorem offersAreStable : Obligations.OffersAreStable := by
  intro s t h hr hx
  obtain ⟨b, hb, rfl⟩ := eq_bothEdges_of_step h.dfr hx
  obtain rfl := build_of_not_rst hr hb
  refine ⟨fun hoffer hready => ?_, fun hov hbusy => ?_⟩
  · obtain ⟨hp, hpv⟩ := ptValid_iff.1 hoffer
    have hedge := prjEdge_of_untaken hr hp (by simp [hready])
    have hoffer' : ptValid (bothEdges s.build s) = true := by
      simp [ptValid_iff, bothEdges, hedge, hp, hpv]
    refine ⟨hoffer', ?_⟩
    change ptPayload _ = ptPayload _
    rw [ptPayload, ptPayload, if_pos hoffer', if_pos hoffer, bothEdges, hedge]
  · obtain ⟨hov', hob⟩ := held_of_untaken h.dfr hr hov (by simp [take, hbusy])
    refine ⟨hov', ?_, rfl⟩
    calc
      foData (bothEdges s.build s) = pack (dfrEdge s).ob := foData_of_ov hov'
      _ = foData s := by rw [hob, foData_of_ov hov]

/-! ## What does not show -/

/-- Settles O55: in_ready reads the hidden registers through `completes` alone, and no other output reads
them. -/
theorem outputsHideRecognizer : Obligations.OutputsHideRecognizer := by
  intro s st idx tlen buf h
  have hready : inReady { s with st := st, idx := idx, tlen := tlen, buf := buf } = inReady s := by
    rw [inReady, h]
    rfl
  rw [outputs, hready]
  rfl

/-- Settles O43: a record is computed from the two angle fields and the masked sample words (`dist_toNat`). -/
theorem uninterpretedBytesAreIgnored : Obligations.UninterpretedBytesAreIgnored := by
  intro b f g h6 h7 h56 h57 hsample
  have hfirst : firstRaw f = firstRaw g := congrArg₂ (· ++ ·) h7 h6
  have hlast : lastRaw f = lastRaw g := congrArg₂ (· ++ ·) h57 h56
  have hdist (k : BitVec 4) : dist b.params f k = dist b.params g k :=
    BitVec.eq_of_toNat_eq (by rw [dist_toNat, dist_toNat, hsample k])
  have htheta (k : BitVec 4) : theta f k = theta g k := by rw [theta, theta, span, span, hfirst, hlast]
  have hpoint (k : BitVec 4) : point b.params f k = point b.params g k := by
    simp only [point, pointX, pointY, hfirst, hlast, hdist, htheta]
  exact List.map_congr_left fun k _ => hpoint _

/-! ## A run without the first header byte -/

/-- In S1, a byte other than the first header byte is skipped (R102). -/
theorem dfrStep_skip {r : DfrRegs} {b : Byte} (hst : r.st = stS1) (hb : b ≠ hdr0) :
    dfrStep r b = (dfrClear r, false) := by
  rw [dfrStep_seek (by simp [hst]) (by simp [hst]), seekStep, if_neg hb]
  rfl

/-- Settles O53: every byte is skipped in S1 (`dfrStep_skip`), and a soft clear leads to S1. -/
theorem noHeaderByteNoFrame : Obligations.NoHeaderByteNoFrame := by
  intro buf es hno
  induction es using List.reverseRecOn with
  | nil => exact ⟨rfl, rfl⟩
  | append_singleton es e ih =>
    obtain ⟨hes, he⟩ : .byte 0x55 ∉ es ∧ .byte 0x55 ≠ e := by simpa using hno
    obtain ⟨hframes, hst⟩ := ih hes
    cases e with
    | sclr =>
      rw [dfrRun_snoc_sclr]
      exact ⟨hframes, rfl⟩
    | byte b =>
      rw [dfrRun_snoc_byte, dfrStep_skip hst fun hb => he (congrArg _ hb.symm), hframes]
      exact ⟨rfl, rfl⟩

end Sys2Proof.Laws
end

section
/-! Runs of PRJ under inputs that are given for some cycles: the fairness of the draw (41_projector.md R150) and
the ready consumer (R152, R153, R156). -/

namespace Sys2Proof.Laws

open Sys2Proof.Machine Sys2Proof.Safety

variable {s t : State}

/-- A run whose first step answers next. -/
theorem run_succ_of_step {M : Host.Core} {u v : M.State} (h : M.step u = .next v) (n : Nat) :
    M.run (n + 1) u = M.run n v := by
  rw [Host.Core.run, h]

/-- The inputs of a cycle that `env` lists. -/
theorem pins_of_env {p : Pins} {ps : List Pins} (h : s.env = p :: ps) : pins s = p := by
  rw [pins, h]

/-- Under the rules, a cycle in the reference manner makes both cycle steps (R93). -/
theorem step_of_plainCycle (h : Inv s) (hp : plainCycle (pins s)) :
    step s = .next (bothEdges s.build s) :=
  step_eq_bothEdges h.dfr (by rw [admitParams, hp.2])

/-! ## The fairness of the draw -/

/-- Where a draw within n cycles is 1, the point is offered within n steps. -/
theorem offered_of_drawWithin (n : Nat) (h : Inv s) (hp : s.pst = .run) (hpv : s.pv = false)
    (hplain : ∀ p ∈ s.env.take n, plainCycle p) (hdraw : drawWithin n s.env) :
    ∃ (m : Nat) (t : State), m ≤ n ∧ core.run m s = .next t ∧
      t.pst = .run ∧ t.pv = true ∧ t.k = s.k ∧ t.pf = s.pf := by
  induction n generalizing s with
  | zero => simp [drawWithin] at hdraw
  | succ n ih =>
    cases henv : s.env with
    | nil => simp [drawWithin, henv] at hdraw
    | cons p ps =>
      have hpins := pins_of_env henv
      rw [henv, List.take_succ_cons, List.forall_mem_cons] at hplain
      obtain ⟨hplainp, hplainps⟩ := hplain
      have hstep := step_of_plainCycle h (hpins ▸ hplainp)
      have hedge : prjEdge s = { s with pv := p.draw, errp := false } := by
        rw [prjEdge_of_untaken (hpins ▸ hplainp.1) hp (by simp [hpv]), hpv, draw, hpins, Bool.false_or]
      have hregs : (bothEdges s.build s).pst = .run ∧ (bothEdges s.build s).pv = p.draw ∧
          (bothEdges s.build s).k = s.k ∧ (bothEdges s.build s).pf = s.pf := by
        simp [bothEdges, hedge, hp]
      obtain ⟨hp', hpv', hk', hpf'⟩ := hregs
      cases hd : p.draw with
      | true =>
        exact ⟨1, _, Nat.le_add_left 1 n, run_succ_of_step (M := core) hstep 0, hp', hpv'.trans hd, hk',
          hpf'⟩
      | false =>
        have henv' : (bothEdges s.build s).env = ps := congrArg List.tail henv
        have hdraw' : drawWithin n ps := by simpa [drawWithin, henv, hd] using hdraw
        obtain ⟨m, t, hm, hrun, hpt, hpvt, hkt, hpft⟩ := ih (inv_of_step h hstep) hp' (hpv'.trans hd)
          (henv'.symm ▸ hplainps) (henv'.symm ▸ hdraw')
        exact ⟨m + 1, t, Nat.succ_le_succ hm, (run_succ_of_step (M := core) hstep m).trans hrun, hpt, hpvt,
          hkt.trans hk', hpft.trans hpf'⟩

/-- Settles O59: `offered_of_drawWithin` for PT_LAT_MAX cycles. -/
theorem fairDrawOffersPoint : Obligations.FairDrawOffersPoint := fun _ h hp hpv _ hplain hdraw =>
  offered_of_drawWithin Config.ptLatMax h hp hpv hplain hdraw

/-! ## The ready consumer -/

/-- In RUN, an edge with rst = 0 moves points from those still to come to those taken (R152, R153). -/
theorem points_bothEdges_of_run (hr : (pins s).rst = false) (hp : s.pst = .run) :
    (bothEdges s.build s).trace.points ++ pendingPoints (bothEdges s.build s) =
      s.trace.points ++ pendingPoints s := by
  have htrace : (bothEdges s.build s).trace = _ := if_neg (by simp [hr])
  have hframes : admittedNow s = [] := by simp [admittedNow, accf_of_run hp]
  rw [htrace, pendingPoints_bothEdges hr, List.append_assoc, points_of_move (prjMove_prjEdge hr), hframes,
    List.flatMap_nil, List.append_nil]

/-- The last point is taken, and PRJ is idle (R153). -/
theorem prjEdge_of_last (hr : (pins s).rst = false) (hp : s.pst = .run) (hpv : s.pv = true)
    (hready : (pins s).ptReady = true) (hk : s.k = 15) :
    prjEdge s = { s with pst := .idle, k := 0, pv := false, errp := false } := by
  simp [prjEdge, hr, hp, hpv, hready, hk]

/-- A point before the last is taken, and the next one follows (R152). -/
theorem prjEdge_of_next (hr : (pins s).rst = false) (hp : s.pst = .run) (hpv : s.pv = true)
    (hready : (pins s).ptReady = true) (hk : s.k ≠ 15) :
    prjEdge s = { s with k := s.k + 1, pv := draw s, errp := false } := by
  have hk' : ¬s.k = 15#4 := hk
  simp [prjEdge, hr, hp, hpv, hready, hk']

/-- With n points still to come, n cycles take them all. -/
theorem taken_of_ready (n : Nat) (h : Inv s) (hp : s.pst = .run) (hpv : s.pv = true)
    (hk : s.k.toNat + n = 16) (hlen : n ≤ s.env.length)
    (hready : ∀ p ∈ s.env.take n, plainCycle p ∧ p.ptReady = true ∧ p.draw = true) :
    ∃ t : State, core.run n s = .next t ∧ t.pst = .idle ∧
      t.trace.points = s.trace.points ++ pendingPoints s := by
  induction n generalizing s with
  | zero =>
    have hlt := s.k.isLt
    omega
  | succ n ih =>
    cases henv : s.env with
    | nil => simp [henv] at hlen
    | cons p ps =>
      have hpins := pins_of_env henv
      rw [henv, List.take_succ_cons, List.forall_mem_cons] at hready
      obtain ⟨⟨hplain, hpready, hpdraw⟩, hreadyps⟩ := hready
      have hr : (pins s).rst = false := hpins ▸ hplain.1
      have hready : (pins s).ptReady = true := hpins ▸ hpready
      have hstep := step_of_plainCycle h (hpins ▸ hplain)
      have hpoints := points_bothEdges_of_run hr hp
      by_cases hlast : s.k = 15
      · obtain rfl : n = 0 := by simp [hlast] at hk; omega
        have hidle : (bothEdges s.build s).pst = .idle := by
          simp [bothEdges, prjEdge_of_last hr hp hpv hready hlast]
        refine ⟨_, run_succ_of_step (M := core) hstep 0, hidle, ?_⟩
        rwa [pendingPoints, hidle, List.append_nil] at hpoints
      · have hedge := prjEdge_of_next hr hp hpv hready hlast
        have hp' : (bothEdges s.build s).pst = .run := by simp [bothEdges, hedge, hp]
        have hpv' : (bothEdges s.build s).pv = true := by simp [bothEdges, hedge, draw, hpins, hpdraw]
        have hk' : (bothEdges s.build s).k = s.k + 1 := by simp [bothEdges, hedge]
        have henv' : (bothEdges s.build s).env = ps := congrArg List.tail henv
        have hnext : (s.k + 1).toNat = s.k.toNat + 1 := BitVec.toNat_add_of_lt (by bv_omega)
        obtain ⟨t, hrun, hidle, htaken⟩ := ih (inv_of_step h hstep) hp' hpv'
          (by rw [hk', hnext]; omega) (by simpa [henv', henv] using hlen) (henv'.symm ▸ hreadyps)
        exact ⟨t, (run_succ_of_step (M := core) hstep n).trans hrun, hidle, htaken.trans hpoints⟩

/-- Settles O60: `taken_of_ready` for the 16 - K points still to come. -/
theorem readyConsumerTakesAllPoints : Obligations.ReadyConsumerTakesAllPoints := by
  intro s h hp hpv hlen hready
  have hlt := s.k.isLt
  exact taken_of_ready (16 - s.k.toNat) h hp hpv (by omega) hlen hready

end Sys2Proof.Laws
end
